-- ==== Sys2Proof/Word.lean ====
section
/-! DEFINITION. The word types of the cc3k protocol engine: a byte (R9), a 16-bit opcode (R82, R87) and a
32-bit value (D10, D51). -/

namespace Sys2Proof

/-- A byte, bit 0 least significant (R9). -/
abbrev Byte := BitVec 8

/-- A 16-bit command, reply or event opcode (R82, R87). -/
abbrev Opcode := BitVec 16

/-- A 32-bit value: time, descriptor (read as signed), family, type, protocol, status, mask (D10, D51). -/
abbrev Word32 := BitVec 32

end Sys2Proof
end

