-- ==== Sys2Proof/Config.lean ====
section
/-! DEFINITION. What an implementation fixes: the constants the source gives (R4), the parameters it leaves
open (R5) as one record of plain data, and the argument codec (R6), which is either the default of GK9 or a
family of uninterpreted functions. -/

namespace Sys2Proof

/-- `SPI_HDR_LEN` (R4). -/
abbrev spiHdrLen : Nat := 5
/-- `CMD_HDR_LEN` (R4). -/
abbrev cmdHdrLen : Nat := 4
/-- `DATA_HDR_LEN` (R4). -/
abbrev dataHdrLen : Nat := 5
/-- `SOCK_SLOTS` (R4). -/
abbrev sockSlots : Nat := 8
/-- A slot index, 0 to 7: the 3 bits `SM.current` holds (R36, R60(c)). -/
abbrev Slot := Fin sockSlots
/-- `UNSOL_THRESHOLD` (R4, R87). -/
abbrev unsolThreshold : Opcode := 0x4100#16

/-- `RX_LEN_OFFSET`, the offset of the length in a received transport header: 1 or 3 (R5, R7(d), D5). -/
inductive RxLenOffset
  | one
  | three
  deriving DecidableEq, Repr

/-- Which argument codec `ARGC` is in use (R6): the default of GK9, or the `id`-th of a family of functions
about which nothing is known (`Config.exResult id` and the others below). -/
inductive Codec
  | gk9
  | free (id : Nat)
  deriving DecidableEq, Repr

/-- The parameters of R5, one field a row, and the choice of codec (R6). Constraints: `Params.wf`. The spec gives
`STATUS_POLL_INTERVAL` (R5, R138, D51), `RECV_MAX_LEN` and `START_DELAY_US` no width: natural numbers, as the length of a
`SOCK_RECV` is (R211); DESIGN CHOICE (log 30). `CONNECT_RETRY_TIMEOUT`, `TYPE_*` and `WLAN_*` have the 32 bits of the
register whose values they are (R42, R41, R25); DEDUCED (log 30). -/
structure Params where
  bufSize : Nat
  spiOpWrite : Byte
  spiOpRead : Byte
  spiOpReply : Byte
  tagCmd : Byte
  tagEvent : Byte
  tagData : Byte
  opcStart : Opcode
  startArgs : List Byte
  opcStatusGet : Opcode
  opcBufferSize : Opcode
  opcWlanConnect : Opcode
  wlanConnectArgs : List Byte
  opcSocket : Opcode
  opcBind : Opcode
  opcConnect : Opcode
  opcListen : Opcode
  opcAccept : Opcode
  opcClose : Opcode
  opcSelect : Opcode
  opcRecv : Opcode
  evDhcp : Opcode
  evCloseWait : Opcode
  dopcSendto : Byte
  rxLenOffset : RxLenOffset
  padByte : Byte
  dataLenCountsArgs : Bool
  statusPollInterval : Nat
  connectRetryTimeout : Word32
  recvMaxLen : Nat
  startDelayUs : Nat
  typeStream : Word32
  typeDgram : Word32
  wlanDisconnected : Word32
  wlanConnected : Word32
  descInvalid : Word32
  codec : Codec
  irqHeldWhileMasked : Bool
  xferSync : Bool
  deriving DecidableEq, Repr

namespace Config

/-! The uninterpreted codec (R6: "The machine assumes nothing of these functions except that each depends on
its operands alone"). No body: nothing can evaluate them or prove a value of them. -/

/-- `ARGS_CREATE(family, type, protocol)` of codec `id`. -/
opaque argsCreate : Nat → Word32 → Word32 → Word32 → List Byte
/-- `ARGS_CONNECT(descriptor, address)` of codec `id`. -/
opaque argsConnect : Nat → Word32 → List Byte → List Byte
/-- `ARGS_RECV(descriptor, length)` of codec `id`. -/
opaque argsRecv : Nat → Word32 → Nat → List Byte
/-- `ARGS_CLOSE(descriptor)` of codec `id`. -/
opaque argsClose : Nat → Word32 → List Byte
/-- `ARGS_SELECT(read_mask)` of codec `id`. -/
opaque argsSelect : Nat → Word32 → List Byte
/-- `ARGS_SENDTO(descriptor, payload_length, address)` of codec `id`. -/
opaque argsSendto : Nat → Word32 → Nat → List Byte → List Byte
/-- `EX_RESULT(args)` of codec `id`. -/
opaque exResult : Nat → List Byte → Option Word32
/-- `EX_STATUS(args)` of codec `id`. -/
opaque exStatus : Nat → List Byte → Option Word32
/-- `EX_BUFFERS(args)` of codec `id`. -/
opaque exBuffers : Nat → List Byte → Option (BitVec 16)
/-- `EX_SELECT_READ(args)` of codec `id`. -/
opaque exSelectRead : Nat → List Byte → Option Word32
/-- `EX_IPCONFIG(args)` of codec `id`. -/
opaque exIpConfig : Nat → List Byte → Option (List Byte)
/-- `EX_DESC(args)` of codec `id`. -/
opaque exDesc : Nat → List Byte → Option Word32
/-- `DATA_DESC(dargs)` of codec `id`. -/
opaque dataDesc : Nat → List Byte → Option Word32

/-- The `k`-th byte the chip supplies beyond those the schedule writes out (R249, U12: any value). -/
opaque chipByte : Nat → Byte

/-! What the spec does not state of operands and contents outside the machine's own bounds (log 19): any value. -/

/-- What stands at an address past the end of TX, for the contents of TX (R60, R71 give it no such address). -/
opaque txBeyond : List (Nat × Byte) → Nat → Byte
/-- What stands at an address past the end of RX, for the contents of RX: a parse depends on nothing else (R109). -/
opaque rxBeyond : List (Nat × Byte) → Nat → Byte
/-- What `transmit_length` holds when the frame's length does not fit its 16 bits (R24). -/
opaque lengthBeyond : Nat → BitVec 16
/-- What `SM.current` holds after a command issued for an index that is no slot's, 8 or more (R36, R60(c), R193). -/
opaque slotBeyond : Nat → Slot
/-- What GK9's 32-bit field holds for a length that does not fit it (log 30). -/
opaque wordBeyond : Nat → Word32

end Config

end Sys2Proof
end

