-- ==== Sys2Proof/Machine/Formats.lean ====
section
/-! DEFINITION. Byte order (R9, R61, R62) and the three wire formats (R80 to R83) on byte lists: what the framer
writes into TX, what `PARSE_*` reads from RX, and what the decoder and the encoder work on. -/

namespace Sys2Proof

/-- `v[7:0]` of a 16-bit value (R9). -/
def lo8 (v : BitVec 16) : Byte := v.setWidth 8

/-- `v[15:8]` of a 16-bit value (R9). -/
def hi8 (v : BitVec 16) : Byte := (v >>> 8).setWidth 8

/-- `BE16(b0, b1)` (R9). -/
def be16 (b0 b1 : Byte) : BitVec 16 := b0 ++ b1

/-- `LE16(b0, b1)` (R9). -/
def le16 (b0 b1 : Byte) : BitVec 16 := b1 ++ b0

/-- `LE32(b0..b3)` (R9). -/
def le32 (b0 b1 b2 b3 : Byte) : Word32 := b3 ++ b2 ++ b1 ++ b0

/-- The four bytes of a 32-bit value, low byte first (R9, GK8). -/
def le32Bytes (v : Word32) : List Byte :=
  [v.setWidth 8, (v >>> 8).setWidth 8, (v >>> 16).setWidth 8, (v >>> 24).setWidth 8]

/-- The transport header as transmitted (R81): type, length high byte first (R61), two busy bytes of zero. -/
def transportHeaderBytes (type : Byte) (length : BitVec 16) : List Byte :=
  [type, hi8 length, lo8 length, 0x00#8, 0x00#8]

/-- A transport header as received (R81, D5): the length stands at `RX_LEN_OFFSET`, the busy bytes in the two
places left. -/
def receivedHeaderBytes (p : Params) (type : Byte) (length : BitVec 16) (busy0 busy1 : Byte) : List Byte :=
  match p.rxLenOffset with
  | .one => [type, hi8 length, lo8 length, busy0, busy1]
  | .three => [type, busy0, busy1, hi8 length, lo8 length]

/-- What the five bytes of a received transport header say: type, length, the two busy bytes (R81, R104). -/
def parseReceivedHeader (p : Params) (b0 b1 b2 b3 b4 : Byte) : Byte × BitVec 16 × Byte × Byte :=
  match p.rxLenOffset with
  | .one => (b0, be16 b1 b2, b3, b4)
  | .three => (b0, be16 b3 b4, b1, b2)

/-- The command/event header followed by its arguments (R82): tag, opcode low byte first (R62), count. -/
def commandPayload (tag : Byte) (opcode : Opcode) (args : List Byte) : List Byte :=
  [tag, lo8 opcode, hi8 opcode, BitVec.ofNat 8 args.length] ++ args

/-- What a data header's 16-bit length counts (R83, D8): the data bytes, or arguments and data. -/
def dataPlen (p : Params) (k m : Nat) : Nat := if p.dataLenCountsArgs then k + m else m

/-- The data header followed by its arguments and the data (R83). -/
def dataPayload (p : Params) (dopcode : Byte) (args data : List Byte) : List Byte :=
  [p.tagData, dopcode, BitVec.ofNat 8 args.length,
    lo8 (BitVec.ofNat 16 (dataPlen p args.length data.length)),
    hi8 (BitVec.ofNat 16 (dataPlen p args.length data.length))] ++ args ++ data

/-- The fields of a command/event header, with the arguments (R105). -/
structure EventHeader where
  tag : Byte
  opcode : Opcode
  argLen : Nat
  args : List Byte
  deriving DecidableEq, Repr

/-- The fields of a data header, with the arguments and the data (R106). -/
structure DataHeader where
  tag : Byte
  dopcode : Byte
  argLen : Nat
  dargs : List Byte
  dataLen : Nat
  data : List Byte
  deriving DecidableEq, Repr

/-- R105 on the `L` payload bytes: `none` when they are fewer than the header, or than header and arguments;
bytes beyond the arguments are ignored. -/
def parseEventPayload (payload : List Byte) : Option EventHeader :=
  match payload with
  | tag :: lo :: hi :: k :: rest =>
    if rest.length < k.toNat then none
    else some ⟨tag, le16 lo hi, k.toNat, rest.take k.toNat⟩
  | _ => none

/-- R106 on the `L` payload bytes: `m` is the data length, or that less the arguments (D8); `none` when the payload
is too short, or when a length that counts the arguments is less than their number. -/
def parseDataPayload (p : Params) (payload : List Byte) : Option DataHeader :=
  match payload with
  | tag :: dopcode :: k :: lo :: hi :: rest =>
    if p.dataLenCountsArgs && (le16 lo hi).toNat < k.toNat then none
    else
      let m := if p.dataLenCountsArgs then (le16 lo hi).toNat - k.toNat else (le16 lo hi).toNat
      if rest.length < k.toNat + m then none
      else some ⟨tag, dopcode, k.toNat, rest.take k.toNat, m, (rest.drop k.toNat).take m⟩
  | _ => none

end Sys2Proof
end

