-- ==== Sys2Proof/Machine/Operands.lean ====
section
/-! DEFINITION. The argument codec `ARGC` (R6): the builders of command arguments and the extractors of reply and
event fields, for the default codec of GK9 (PRESUMED, log 2) and for a codec about which nothing is known. -/

namespace Sys2Proof

/-- A builder's result has at most 255 bytes (R6). -/
def fitArgs (l : List Byte) : List Byte := l.take 255

/-- A length as GK9's 32-bit little-endian fields hold it. The spec states no width for a length and no value of the
field for one that does not fit it: any value. DESIGN CHOICE (log 30). -/
def word32 (n : Nat) : Word32 := if n < 2 ^ 32 then BitVec.ofNat 32 n else Config.wordBeyond n

/-- `ARGS_CREATE(family, type, protocol)`. -/
def argsCreate (c : Codec) (family type protocol : Word32) : List Byte :=
  match c with
  | .gk9 => le32Bytes family ++ le32Bytes type ++ le32Bytes protocol
  | .free id => fitArgs (Config.argsCreate id family type protocol)

/-- `ARGS_CONNECT(descriptor, address)`. GK9: descriptor, 8, the address length, the address. -/
def argsConnect (c : Codec) (descriptor : Word32) (address : List Byte) : List Byte :=
  match c with
  | .gk9 => le32Bytes descriptor ++ le32Bytes 8 ++ le32Bytes (word32 address.length) ++ address
  | .free id => fitArgs (Config.argsConnect id descriptor address)

/-- `ARGS_RECV(descriptor, length)`. GK9: descriptor, length, flags 0. -/
def argsRecv (c : Codec) (descriptor : Word32) (length : Nat) : List Byte :=
  match c with
  | .gk9 => le32Bytes descriptor ++ le32Bytes (word32 length) ++ le32Bytes 0
  | .free id => fitArgs (Config.argsRecv id descriptor length)

/-- `ARGS_CLOSE(descriptor)`. -/
def argsClose (c : Codec) (descriptor : Word32) : List Byte :=
  match c with
  | .gk9 => le32Bytes descriptor
  | .free id => fitArgs (Config.argsClose id descriptor)

/-- `ARGS_SELECT(read_mask)`. GK9: descriptor count, four offsets, blocking flag, the three masks, two times. -/
def argsSelect (c : Codec) (mask : Word32) : List Byte :=
  match c with
  | .gk9 =>
    le32Bytes 32 ++ le32Bytes 0x14 ++ le32Bytes 0x14 ++ le32Bytes 0x14 ++ le32Bytes 0x14 ++ le32Bytes 0 ++
      le32Bytes mask ++ le32Bytes 0 ++ le32Bytes 0 ++ le32Bytes 0 ++ le32Bytes 0
  | .free id => fitArgs (Config.argsSelect id mask)

/-- `ARGS_SENDTO(descriptor, payload_length, address)`. -/
def argsSendto (c : Codec) (descriptor : Word32) (payloadLen : Nat) (address : List Byte) : List Byte :=
  match c with
  | .gk9 =>
    le32Bytes descriptor ++ le32Bytes 20 ++ le32Bytes (word32 payloadLen) ++ le32Bytes 0 ++
      le32Bytes (word32 (payloadLen + 8)) ++ le32Bytes (word32 address.length)
  | .free id => fitArgs (Config.argsSendto id descriptor payloadLen address)

/-- The 32-bit word after the status byte of an event's arguments (GK9). -/
def wordAfterStatus : List Byte → Option Word32
  | _ :: b0 :: b1 :: b2 :: b3 :: _ => some (le32 b0 b1 b2 b3)
  | _ => none

/-- `EX_RESULT(args)`: the signed result of a create, connect or close reply. -/
def exResult (c : Codec) (args : List Byte) : Option Word32 :=
  match c with
  | .gk9 => wordAfterStatus args
  | .free id => Config.exResult id args

/-- `EX_STATUS(args)`: the WLAN status. -/
def exStatus (c : Codec) (args : List Byte) : Option Word32 :=
  match c with
  | .gk9 => wordAfterStatus args
  | .free id => Config.exStatus id args

/-- `EX_DESC(args)`: the descriptor a close-wait event carries. -/
def exDesc (c : Codec) (args : List Byte) : Option Word32 :=
  match c with
  | .gk9 => wordAfterStatus args
  | .free id => Config.exDesc id args

/-- GK9's `EX_BUFFERS`: the byte after the status byte. -/
def byteAfterStatus : List Byte → Option (BitVec 16)
  | _ :: b :: _ => some (b.setWidth 16)
  | _ => none

/-- `EX_BUFFERS(args)`: the chip's buffer count. -/
def exBuffers (c : Codec) (args : List Byte) : Option (BitVec 16) :=
  match c with
  | .gk9 => byteAfterStatus args
  | .free id => Config.exBuffers id args

/-- `EX_SELECT_READ(args)`: the 32-bit read-ready mask. GK9: bytes 5 to 8. -/
def exSelectRead (c : Codec) (args : List Byte) : Option Word32 :=
  match c with
  | .gk9 => if args.length < 9 then none else wordAfterStatus (args.drop 4)
  | .free id => Config.exSelectRead id args

/-- `EX_IPCONFIG(args)`: the IP configuration, an opaque byte string. GK9: bytes 1 to 20. -/
def exIpConfig (c : Codec) (args : List Byte) : Option (List Byte) :=
  match c with
  | .gk9 => if args.length < 21 then none else some ((args.drop 1).take 20)
  | .free id => Config.exIpConfig id args

/-- `DATA_DESC(dargs)`: the descriptor in an inbound data frame's arguments. GK9: the first four bytes. -/
def dataDesc (c : Codec) (dargs : List Byte) : Option Word32 :=
  match c with
  | .gk9 =>
    match dargs with
    | b0 :: b1 :: b2 :: b3 :: _ => some (le32 b0 b1 b2 b3)
    | _ => none
  | .free id => Config.dataDesc id dargs

end Sys2Proof
end

