-- ==== Sys2Proof/Machine/Defaults.lean ====
section
/-! DEFINITION. The default column of R5: the parameter values at reset and those `decodeTableWord` reads the
opcode table with. Log 1 (numbers from general knowledge, PRESUMED) and log 3 (values R5 leaves to a model
argument, DESIGN CHOICE). -/

namespace Sys2Proof

/-- The default column of R5. PRESUMED: GK2 to GK9 (log 1). DESIGN CHOICE where R5 says "model argument":
`wlanConnectArgs`, `connectRetryTimeout`, `recvMaxLen`, `startDelayUs`, and the two open booleans (log 3). -/
def defaultParams : Params where
  bufSize := 1700
  spiOpWrite := 0x01#8
  spiOpRead := 0x03#8
  spiOpReply := 0x02#8
  tagCmd := 0x01#8
  tagEvent := 0x04#8
  tagData := 0x02#8
  opcStart := 0x4000#16
  startArgs := [0x00#8]
  opcStatusGet := 0x0009#16
  opcBufferSize := 0x400B#16
  opcWlanConnect := 0x0001#16
  wlanConnectArgs := []
  opcSocket := 0x1001#16
  opcBind := 0x1002#16
  opcConnect := 0x1007#16
  opcListen := 0x1006#16
  opcAccept := 0x1005#16
  opcClose := 0x100B#16
  opcSelect := 0x1008#16
  opcRecv := 0x1004#16
  evDhcp := 0x8010#16
  evCloseWait := 0x8800#16
  dopcSendto := 0x83#8
  rxLenOffset := .one
  padByte := 0x00#8
  dataLenCountsArgs := false
  statusPollInterval := 5
  connectRetryTimeout := 5#32
  recvMaxLen := 256
  startDelayUs := 50
  typeStream := 1#32
  typeDgram := 2#32
  wlanDisconnected := 0#32
  wlanConnected := 3#32
  descInvalid := 0xFFFFFFFF#32
  codec := .gk9
  irqHeldWhileMasked := true
  xferSync := false

end Sys2Proof
end

