-- ==== Sys2Proof/Syntax.lean ====
section
/-! DEFINITION. The operation set: one constructor of `Instr` for each row of spec/opcode_table.json, in the
table's order. "Instruction" is an operation of the block, and an instruction's encoding is a wire format or,
where there is none, a line of the trace notation (R8). -/

namespace Sys2Proof

/-- The twelve values of `DRV.state`, in the order of R21. -/
inductive DrvState
  | init
  | startSequence
  | commandRequest
  | sendingCommand
  | awaitingReply
  | idle
  | readingHeader
  | readingPayload
  | eventReady
  | dataRequest
  | sendingData
  | receivingData
  deriving DecidableEq, Repr

/-- The rows of the opcode table. Byte lists are argument, data or received bytes in wire order (R9). -/
inductive Instr
  -- format rows (R80 to R84)
  | xportHdrWrite (length : BitVec 16)
  | xportHdrRead
  | xportHdrReceived (type : Byte) (length : BitVec 16) (busy0 busy1 : Byte)
  | cmdHdr (opcode : Opcode) (args : List Byte)
  | eventHdr (opcode : Opcode) (args : List Byte)
  | dataHdrOut (dopcode : Byte) (args data : List Byte)
  | dataHdrIn (dopcode : Byte) (args data : List Byte)
  | pad
  -- named commands and their replies (R88)
  | cmdStart (args : List Byte)
  | replyStart (args : List Byte)
  | cmdStatusGet (args : List Byte)
  | replyStatusGet (args : List Byte)
  | cmdBufferSize (args : List Byte)
  | replyBufferSize (args : List Byte)
  | cmdWlanConnect (args : List Byte)
  | replyWlanConnect (args : List Byte)
  | cmdSocket (args : List Byte)
  | replySocket (args : List Byte)
  | cmdBind (args : List Byte)
  | replyBind (args : List Byte)
  | cmdRecv (args : List Byte)
  | replyRecv (args : List Byte)
  | cmdAccept (args : List Byte)
  | replyAccept (args : List Byte)
  | cmdListen (args : List Byte)
  | replyListen (args : List Byte)
  | cmdConnect (args : List Byte)
  | replyConnect (args : List Byte)
  | cmdSelect (args : List Byte)
  | replySelect (args : List Byte)
  | cmdClose (args : List Byte)
  | replyClose (args : List Byte)
  -- events, and what the dispatcher meets besides (R89)
  | evDhcp (args : List Byte)
  | evCloseWait (args : List Byte)
  | evUnsolicitedOther (opcode : Opcode) (args : List Byte)
  | replyOther (opcode : Opcode) (args : List Byte)
  | replyUnexpected (opcode : Opcode) (args : List Byte)
  | tagUnrecognised (tag : Byte)
  | packetMalformed (payload : List Byte)
  | dataSendto (args data : List Byte)
  | dataIn (dopcode : Byte) (args data : List Byte)
  -- the framer (R100 to R106)
  | frameTransport (type : Byte) (payloadLen : Nat)
  | frameReadHeader
  | frameCommand (opcode : Opcode) (args : List Byte)
  | frameData (dopcode : Byte) (args data : List Byte)
  | parseTransport
  | parseEventHeader
  | parseDataHeader
  -- the sequencer (R120 to R134)
  | start
  | issueCommand (opcode : Opcode) (args : List Byte)
  | issueData (dopcode : Byte) (args data : List Byte)
  | onInterrupt
  | onInterruptCommandRequest
  | onInterruptDataRequest
  | onInterruptReadHeader
  | onInterruptUnhandled
  | onTransportComplete (rx : List Byte)
  | onTransportCompleteSendingCommand (n : Nat)
  | onTransportCompleteSendingData (n : Nat)
  | onTransportCompleteReadingHeader
  | onTransportCompleteReadingPayload (n : Nat)
  | finishReceive
  | onTransportCompleteNoTransaction
  -- the polling loop's entry point (R135 to R143)
  | poll (dt : Word32)
  | pollDispatch
  | pollDrainLatchedInterrupt
  | pollStatusTimer (dt : Word32)
  | pollSocketManager (dt : Word32)
  | setState (target : DrvState)
  | wlanConnect
  | getWlanStatus
  | getBuffers
  | getIpConfig
  -- the dispatcher (R160 to R165)
  | dispatch
  | dispatchResume
  | dispatchData
  | dispatchEvent
  | dispatchUnsolicited (opcode : Opcode) (args : List Byte)
  | dispatchMatchingReply (opcode : Opcode) (args : List Byte)
  -- the socket table and the socket manager (R191 to R201)
  | sockAdd (family type protocol : Word32) (address : List Byte)
  | sockLookup (descriptor : Word32)
  | sockIssue (slot : Nat) (opcode : Opcode) (args : List Byte)
  | smPoll (dt : Word32)
  | smPollInit (slot : Nat)
  | smPollCreated (slot : Nat)
  | smPollFailed (slot : Nat) (dt : Word32)
  | smPollReady (slot : Nat)
  | smPollCloseWait (slot : Nat)
  | smPollOtherStates (slot : Nat)
  | smPollSelect
  -- replies, events and data routed to sockets (R202 to R209)
  | sockReplySocket (args : List Byte) (cur : Option Nat)
  | sockReplyConnect (args : List Byte) (cur : Option Nat)
  | sockReplyClose (args : List Byte) (cur : Option Nat)
  | sockReplySelect (args : List Byte) (cur : Option Nat)
  | sockReplyRecv (args : List Byte) (cur : Option Nat)
  | sockReplyServer (opcode : Opcode) (args : List Byte) (cur : Option Nat)
  | sockCloseWait (descriptor : Word32)
  | sockData (dargs : List Byte) (m : Nat)
  -- the application's operations on a socket (R210 to R212)
  | sockClose (slot : Nat)
  | sockRecv (slot : Nat) (length : Nat)
  | sendTo (slot : Nat) (data : List Byte) (address : List Byte)
  deriving DecidableEq, Repr

end Sys2Proof
end

