-- ==== Sys2Proof/WellFormed.lean ====
section
/-! DEFINITION. The constraints on parameters (R7) and on an operation's operands: what its encoding can carry
(R81 to R83), what its caller must check (R100), and what makes a row of R89 that row. -/

namespace Sys2Proof

/-- The twelve named commands (R88). -/
inductive CmdName
  | start
  | statusGet
  | bufferSize
  | wlanConnect
  | socket
  | bind
  | recv
  | accept
  | listen
  | connect
  | select
  | close
  deriving DecidableEq, Repr

/-- All of them. -/
def CmdName.all : List CmdName :=
  [.start, .statusGet, .bufferSize, .wlanConnect, .socket, .bind, .recv, .accept, .listen, .connect, .select,
    .close]

/-- The opcode parameter of a named command (R5, R88). -/
def Params.opcodeOf (p : Params) : CmdName → Opcode
  | .start => p.opcStart
  | .statusGet => p.opcStatusGet
  | .bufferSize => p.opcBufferSize
  | .wlanConnect => p.opcWlanConnect
  | .socket => p.opcSocket
  | .bind => p.opcBind
  | .recv => p.opcRecv
  | .accept => p.opcAccept
  | .listen => p.opcListen
  | .connect => p.opcConnect
  | .select => p.opcSelect
  | .close => p.opcClose

/-- R4 and R7: the constraints every parameter choice must meet (`RX_LEN_OFFSET`, R7(d), is 1 or 3 by its type);
`BUF_SIZE` up to 65535 is R24's width of `transmit_length`; the handshake's arguments fit the one-byte count. -/
def Params.wf (p : Params) : Bool :=
  decide (1700 ≤ p.bufSize) && decide (p.bufSize ≤ 65535) &&
  decide ([p.spiOpWrite, p.spiOpRead, p.spiOpReply].Nodup) &&
  decide ([p.tagCmd, p.tagEvent, p.tagData].Nodup) &&
  decide ((CmdName.all.map p.opcodeOf).Nodup) &&
  CmdName.all.all (fun c => (p.opcodeOf c).ult unsolThreshold) &&
  decide (p.evDhcp ≠ p.evCloseWait) &&
  !(p.evDhcp.ult unsolThreshold) && !(p.evCloseWait.ult unsolThreshold) &&
  decide (1 ≤ p.connectRetryTimeout.toNat) &&
  decide (p.startArgs.length ≤ 255)

/-- The opcode is one of the twelve named ones (R88). -/
def Params.named (p : Params) (opcode : Opcode) : Bool := CmdName.all.any (fun c => p.opcodeOf c == opcode)

/-- The argument count fits its byte (R82). -/
def argsFit (args : List Byte) : Bool := decide (args.length ≤ 255)

/-- The two counts of a data header fit their fields (R83). -/
def dataFit (p : Params) (args data : List Byte) : Bool :=
  argsFit args && decide (dataPlen p args.length data.length ≤ 65535)

/-- The slot index space (R60(c)). -/
def slotOk (slot : Nat) : Bool := decide (slot < sockSlots)

/-- `cur` of the reply rules: none or a slot index (R36). -/
def curOk : Option Nat → Bool
  | none => true
  | some slot => slotOk slot

/-- The payload is one R175 refuses: none at all, or one its tag's header does not fit. -/
def malformed (p : Params) : List Byte → Bool
  | [] => true
  | tag :: rest =>
    if tag = p.tagData then (parseDataPayload p (tag :: rest)).isNone
    else if tag = p.tagEvent then (parseEventPayload (tag :: rest)).isNone
    else false

/-- The operands are ones the operation's encoding and its defining rule admit. -/
def Instr.wf (p : Params) : Instr → Bool
  | .xportHdrWrite _ | .xportHdrRead | .xportHdrReceived .. | .pad => true
  | .cmdHdr _ args | .eventHdr _ args => argsFit args
  | .dataHdrOut _ args data | .dataHdrIn _ args data => dataFit p args data
  | .cmdStart args | .replyStart args | .cmdStatusGet args | .replyStatusGet args => argsFit args
  | .cmdBufferSize args | .replyBufferSize args | .cmdWlanConnect args | .replyWlanConnect args => argsFit args
  | .cmdSocket args | .replySocket args | .cmdBind args | .replyBind args => argsFit args
  | .cmdRecv args | .replyRecv args | .cmdAccept args | .replyAccept args => argsFit args
  | .cmdListen args | .replyListen args | .cmdConnect args | .replyConnect args => argsFit args
  | .cmdSelect args | .replySelect args | .cmdClose args | .replyClose args => argsFit args
  | .evDhcp args | .evCloseWait args => argsFit args
  | .evUnsolicitedOther opcode args =>
    argsFit args && !(opcode.ult unsolThreshold) && decide (opcode ≠ p.evDhcp) && decide (opcode ≠ p.evCloseWait)
  | .replyOther opcode args => argsFit args && opcode.ult unsolThreshold && !(p.named opcode)
  | .replyUnexpected opcode args => argsFit args && opcode.ult unsolThreshold
  | .tagUnrecognised tag => decide (tag ≠ p.tagEvent) && decide (tag ≠ p.tagData)
  | .packetMalformed payload => malformed p payload
  | .dataSendto args data | .dataIn _ args data => dataFit p args data
  | .frameTransport _ payloadLen => decide (5 + payloadLen + 1 ≤ p.bufSize)
  | .frameReadHeader | .frameCommand .. | .frameData .. => true
  | .parseTransport | .parseEventHeader | .parseDataHeader => true
  | .start | .issueCommand .. | .issueData .. => true
  | .onInterrupt | .onInterruptCommandRequest | .onInterruptDataRequest => true
  | .onInterruptReadHeader | .onInterruptUnhandled => true
  | .onTransportComplete rx => decide (rx.length ≤ p.bufSize - 5)
  | .onTransportCompleteSendingCommand n | .onTransportCompleteSendingData n => decide (n ≤ p.bufSize)
  | .onTransportCompleteReadingHeader => true
  | .onTransportCompleteReadingPayload n => decide (5 + n ≤ p.bufSize)
  | .finishReceive | .onTransportCompleteNoTransaction => true
  | .poll _ | .pollDispatch | .pollDrainLatchedInterrupt | .pollStatusTimer _ | .pollSocketManager _ => true
  | .setState _ | .wlanConnect | .getWlanStatus | .getBuffers | .getIpConfig => true
  | .dispatch | .dispatchResume | .dispatchData | .dispatchEvent => true
  | .dispatchUnsolicited opcode _ => !(opcode.ult unsolThreshold)
  | .dispatchMatchingReply opcode _ => opcode.ult unsolThreshold
  | .sockAdd .. | .sockLookup _ => true
  | .sockIssue slot _ _ => slotOk slot
  | .smPoll _ => true
  | .smPollInit slot | .smPollCreated slot | .smPollFailed slot _ | .smPollReady slot => slotOk slot
  | .smPollCloseWait slot | .smPollOtherStates slot => slotOk slot
  | .smPollSelect => true
  | .sockReplySocket _ cur | .sockReplyConnect _ cur | .sockReplyClose _ cur => curOk cur
  | .sockReplySelect _ cur | .sockReplyRecv _ cur => curOk cur
  | .sockReplyServer opcode _ cur =>
    curOk cur && decide (opcode = p.opcBind ∨ opcode = p.opcListen ∨ opcode = p.opcAccept)
  | .sockCloseWait _ => true
  | .sockData _ m => decide (m ≤ 65535)
  | .sockClose _ | .sockRecv .. | .sendTo .. => true

end Sys2Proof
end

