-- ==== Sys2Proof/Decode.lean ====
section
/-! DEFINITION. The decoder and the encoder. A row with a wire form is decoded from bytes and the place in the
transaction they stand at (R80, R92); an operation with none is decoded from its line of the trace notation (R8,
R91). Both are total and reject by name. Log 20, log 21. -/

namespace Sys2Proof

/-- Where in a transaction bytes stand, and whether they are read as a format (R80 to R83: the tag alone) or as a
named packet (R88, R89). -/
inductive WireSite
  /-- Bytes 0 to 4 of an outbound transaction (R81). -/
  | txHeader
  /-- Bytes 0 to 4 of a received packet (R81). -/
  | rxHeader
  /-- The byte after an outbound payload (R84). -/
  | txPad
  /-- An outbound payload by its format (R82, R83). -/
  | txFormat
  /-- A received payload by its format (R82, R83). -/
  | rxFormat
  /-- An outbound payload by its opcode (R88). -/
  | txPacket
  /-- A received payload as the dispatcher tells it apart (R88, R89). -/
  | rxPacket
  deriving DecidableEq, Repr

/-- Why bytes or a trace line are no operation. -/
inductive DecodeError
  /-- A header or a payload ends before its fields do. -/
  | truncated
  /-- An outbound transport type that is neither write nor read (R85). -/
  | unknownTransportType
  /-- A busy byte of an outbound header that is not zero, or a read header with a length (R81, R101). -/
  | reservedNotZero
  /-- An outbound tag that is neither command nor data (R86). -/
  | unknownOutboundTag
  /-- An inbound tag that is neither event nor data, where only a format is asked for (R86). -/
  | unknownInboundTag
  /-- A byte at the padding place that is not `PAD_BYTE` (R84). -/
  | notPadding
  /-- A trace line's name is no operation of R90. -/
  | unknownOperation
  /-- A trace line's operands are not those of its operation. -/
  | badOperands
  deriving DecidableEq, Repr

/-- A decoder's answer: an operation, or a rejection by name. -/
inductive Decoded
  | instr (i : Instr)
  | rejected (e : DecodeError)
  deriving DecidableEq, Repr

/-- The operation a decoder gave, if it gave one. -/
def Decoded.toOption : Decoded → Option Instr
  | .instr i => some i
  | .rejected _ => none

/-! ### Wire forms -/

/-- The row of an outbound command (R88). -/
def cmdInstr : CmdName → List Byte → Instr
  | .start => .cmdStart
  | .statusGet => .cmdStatusGet
  | .bufferSize => .cmdBufferSize
  | .wlanConnect => .cmdWlanConnect
  | .socket => .cmdSocket
  | .bind => .cmdBind
  | .recv => .cmdRecv
  | .accept => .cmdAccept
  | .listen => .cmdListen
  | .connect => .cmdConnect
  | .select => .cmdSelect
  | .close => .cmdClose

/-- The row of a reply (R88). -/
def replyInstr : CmdName → List Byte → Instr
  | .start => .replyStart
  | .statusGet => .replyStatusGet
  | .bufferSize => .replyBufferSize
  | .wlanConnect => .replyWlanConnect
  | .socket => .replySocket
  | .bind => .replyBind
  | .recv => .replyRecv
  | .accept => .replyAccept
  | .listen => .replyListen
  | .connect => .replyConnect
  | .select => .replySelect
  | .close => .replyClose

/-- The named command an opcode belongs to, if any (R88). -/
def nameOf (p : Params) (opcode : Opcode) : Option CmdName := CmdName.all.find? (fun c => p.opcodeOf c == opcode)

/-- The five bytes the block puts before an outbound payload (R81, R85). -/
def decodeTxHeader (p : Params) : List Byte → Decoded
  | t :: h :: l :: b0 :: b1 :: _ =>
    if b0 ≠ 0 ∨ b1 ≠ 0 then .rejected .reservedNotZero
    else if t = p.spiOpWrite then .instr (.xportHdrWrite (be16 h l))
    else if t = p.spiOpRead then
      if h = 0 ∧ l = 0 then .instr .xportHdrRead else .rejected .reservedNotZero
    else .rejected .unknownTransportType
  | _ => .rejected .truncated

/-- A received transport header: every five bytes parse (R104). -/
def decodeRxHeader (p : Params) : List Byte → Decoded
  | b0 :: b1 :: b2 :: b3 :: b4 :: _ =>
    let h := parseReceivedHeader p b0 b1 b2 b3 b4
    .instr (.xportHdrReceived h.1 h.2.1 h.2.2.1 h.2.2.2)
  | _ => .rejected .truncated

/-- An outbound payload (R82, R83), its opcode looked up when `named` says so (R88). -/
def decodeTxPayload (p : Params) (named : Bool) (payload : List Byte) : Decoded :=
  match payload with
  | [] => .rejected .truncated
  | tag :: _ =>
    if tag = p.tagCmd then
      match parseEventPayload payload with
      | none => .rejected .truncated
      | some h =>
        match (if named then nameOf p h.opcode else none) with
        | some c => .instr (cmdInstr c h.args)
        | none => .instr (.cmdHdr h.opcode h.args)
    else if tag = p.tagData then
      match parseDataPayload p payload with
      | none => .rejected .truncated
      | some h =>
        if named && h.dopcode == p.dopcSendto then .instr (.dataSendto h.dargs h.data)
        else .instr (.dataHdrOut h.dopcode h.dargs h.data)
    else .rejected .unknownOutboundTag

/-- A received payload by its format (R82, R83, R92). -/
def decodeRxFormat (p : Params) (payload : List Byte) : Decoded :=
  match payload with
  | [] => .rejected .truncated
  | tag :: _ =>
    if tag = p.tagData then
      match parseDataPayload p payload with
      | none => .rejected .truncated
      | some h => .instr (.dataHdrIn h.dopcode h.dargs h.data)
    else if tag = p.tagEvent then
      match parseEventPayload payload with
      | none => .rejected .truncated
      | some h => .instr (.eventHdr h.opcode h.args)
    else .rejected .unknownInboundTag

/-- The row of a well-formed event: unsolicited at or above the threshold, below it the reply to the pending command
or an unexpected one (R87, R89). -/
def decodeEvent (p : Params) (pending : Option Opcode) (opcode : Opcode) (args : List Byte) : Instr :=
  if opcode.ult unsolThreshold then
    if pending = some opcode then
      match nameOf p opcode with
      | some c => replyInstr c args
      | none => .replyOther opcode args
    else .replyUnexpected opcode args
  else if opcode = p.evDhcp then .evDhcp args
  else if opcode = p.evCloseWait then .evCloseWait args
  else .evUnsolicitedOther opcode args

/-- A received payload as the dispatcher tells it apart (R89, R160): never rejected. -/
def decodeRxPacket (p : Params) (pending : Option Opcode) (payload : List Byte) : Decoded :=
  match payload with
  | [] => .instr (.packetMalformed [])
  | tag :: _ =>
    if tag = p.tagData then
      match parseDataPayload p payload with
      | none => .instr (.packetMalformed payload)
      | some h => .instr (.dataIn h.dopcode h.dargs h.data)
    else if tag = p.tagEvent then
      match parseEventPayload payload with
      | none => .instr (.packetMalformed payload)
      | some h => .instr (decodeEvent p pending h.opcode h.args)
    else .instr (.tagUnrecognised tag)

/-- The operation whose wire form stands at `site` (R8, R80). `pending` is `DRV.pending_command`, which tells a reply
from an unexpected one (R89). -/
def decodeWire (p : Params) (pending : Option Opcode) (site : WireSite) (bytes : List Byte) : Decoded :=
  match site with
  | .txHeader => decodeTxHeader p bytes
  | .rxHeader => decodeRxHeader p bytes
  | .txPad =>
    match bytes with
    | [] => .rejected .truncated
    | b :: _ => if b = p.padByte then .instr .pad else .rejected .notPadding
  | .txFormat => decodeTxPayload p false bytes
  | .rxFormat => decodeRxFormat p bytes
  | .txPacket => decodeTxPayload p true bytes
  | .rxPacket => decodeRxPacket p pending bytes

/-! ### Trace lines -/

/-- An operand as a trace line writes it: a number, a byte list, a sequencer state, or `cur` (R91). -/
inductive Operand
  | num (n : Nat)
  | bytes (l : List Byte)
  | state (target : DrvState)
  | cur (slot : Option Nat)
  deriving DecidableEq, Repr

/-- A line of the trace notation without its `irq=` (R91): the operation's name and its operands. -/
structure TraceOp where
  name : String
  operands : List Operand
  deriving DecidableEq, Repr

/-- A 32-bit operand. -/
def num32 (n : Nat) : Option Word32 := if n < 2 ^ 32 then some (BitVec.ofNat 32 n) else none

/-- A 16-bit operand. -/
def num16 (n : Nat) : Option Opcode := if n < 2 ^ 16 then some (BitVec.ofNat 16 n) else none

/-- A one-byte operand. -/
def num8 (n : Nat) : Option Byte := if n < 2 ^ 8 then some (BitVec.ofNat 8 n) else none

/-- No operands. -/
def noOperands (i : Instr) : List Operand → Option Instr
  | [] => some i
  | _ => none

/-- One natural number: a slot or a length. No number is rejected here: what an index of 8 or more, which is no slot's
(R60(c)), does is the operation's to say. DESIGN CHOICE (log 19, log 21). -/
def natOperand (f : Nat → Instr) : List Operand → Option Instr
  | [.num n] => some (f n)
  | _ => none

/-- One 32-bit number (a time, a descriptor). -/
def wordOperand (f : Word32 → Instr) : List Operand → Option Instr
  | [.num n] => (num32 n).map f
  | _ => none

/-- A 16-bit opcode and argument bytes. -/
def opcodeArgs (f : Opcode → List Byte → Instr) : List Operand → Option Instr
  | [.num n, .bytes args] => (num16 n).map (fun o => f o args)
  | _ => none

/-- An 8-bit data opcode, argument bytes and data bytes. -/
def dopcodeArgsData (f : Byte → List Byte → List Byte → Instr) : List Operand → Option Instr
  | [.num n, .bytes args, .bytes data] => (num8 n).map (fun o => f o args data)
  | _ => none

/-- Argument bytes and `cur`. -/
def argsCur (f : List Byte → Option Nat → Instr) : List Operand → Option Instr
  | [.bytes args, .cur c] => some (f args c)
  | _ => none

/-- The operations that have no wire form, by the name their trace line begins with: R91's spelling for
`ON_INTERRUPT` and `ON_TRANSPORT_COMPLETE` (`IRQ`, `XFER_DONE`), the opcode table's for the others. A slot may be any
natural number (log 19); a number wider than the width the spec states for it is no operand (log 21). -/
def traceTable : List (String × (List Operand → Option Instr)) := [
  ("FRAME_TRANSPORT", fun
    | [.num t, .num n] => (num8 t).map (fun t => .frameTransport t n)
    | _ => none),
  ("FRAME_READ_HEADER", noOperands .frameReadHeader),
  ("FRAME_COMMAND", opcodeArgs .frameCommand),
  ("FRAME_DATA", dopcodeArgsData .frameData),
  ("PARSE_TRANSPORT", noOperands .parseTransport),
  ("PARSE_EVENT_HEADER", noOperands .parseEventHeader),
  ("PARSE_DATA_HEADER", noOperands .parseDataHeader),
  ("START", noOperands .start),
  ("ISSUE_COMMAND", opcodeArgs .issueCommand),
  ("ISSUE_DATA", dopcodeArgsData .issueData),
  ("IRQ", noOperands .onInterrupt),
  ("ON_INTERRUPT.CommandRequest", noOperands .onInterruptCommandRequest),
  ("ON_INTERRUPT.DataRequest", noOperands .onInterruptDataRequest),
  ("ON_INTERRUPT.StartSequence|AwaitingReply|Idle|ReceivingData", noOperands .onInterruptReadHeader),
  ("ON_INTERRUPT.Init_SendingCommand_SendingData_ReadingHead", noOperands .onInterruptUnhandled),
  ("XFER_DONE", fun
    | [] => some (.onTransportComplete [])
    | [.bytes rx] => some (.onTransportComplete rx)
    | _ => none),
  ("ON_TRANSPORT_COMPLETE.SendingCommand", natOperand .onTransportCompleteSendingCommand),
  ("ON_TRANSPORT_COMPLETE.SendingData", natOperand .onTransportCompleteSendingData),
  ("ON_TRANSPORT_COMPLETE.ReadingHeader", noOperands .onTransportCompleteReadingHeader),
  ("ON_TRANSPORT_COMPLETE.ReadingPayload", natOperand .onTransportCompleteReadingPayload),
  ("finish_receive", noOperands .finishReceive),
  ("ON_TRANSPORT_COMPLETE.no_transaction", noOperands .onTransportCompleteNoTransaction),
  ("POLL", wordOperand .poll),
  ("POLL.P1_dispatch", noOperands .pollDispatch),
  ("POLL.P2_drain_latched_interrupt", noOperands .pollDrainLatchedInterrupt),
  ("POLL.P3_status_timer", wordOperand .pollStatusTimer),
  ("POLL.P4_socket_manager", wordOperand .pollSocketManager),
  ("set_state", fun
    | [.state t] => some (.setState t)
    | _ => none),
  ("WLAN_CONNECT", noOperands .wlanConnect),
  ("GET_WLAN_STATUS", noOperands .getWlanStatus),
  ("GET_BUFFERS", noOperands .getBuffers),
  ("GET_IP_CONFIG", noOperands .getIpConfig),
  ("DISPATCH", noOperands .dispatch),
  ("DISPATCH.resume", noOperands .dispatchResume),
  ("DISPATCH.data", noOperands .dispatchData),
  ("DISPATCH.event", noOperands .dispatchEvent),
  ("DISPATCH.unsolicited", opcodeArgs .dispatchUnsolicited),
  ("DISPATCH.matching_reply", opcodeArgs .dispatchMatchingReply),
  ("SOCK_ADD", fun
    | [.num f, .num t, .num pr, .bytes addr] =>
      (num32 f).bind fun f => (num32 t).bind fun t => (num32 pr).map fun pr => .sockAdd f t pr addr
    | _ => none),
  ("SOCK_LOOKUP", wordOperand .sockLookup),
  ("sock_issue", fun
    | [.num i, .num n, .bytes args] => (num16 n).map (fun o => .sockIssue i o args)
    | _ => none),
  ("SM_POLL", wordOperand .smPoll),
  ("SM_POLL.Init", natOperand .smPollInit),
  ("SM_POLL.Created", natOperand .smPollCreated),
  ("SM_POLL.Failed", fun
    | [.num i, .num n] => (num32 n).map (fun dt => .smPollFailed i dt)
    | _ => none),
  ("SM_POLL.Ready", natOperand .smPollReady),
  ("SM_POLL.CloseWait", natOperand .smPollCloseWait),
  ("SM_POLL.other_states", natOperand .smPollOtherStates),
  ("SM_POLL.select", noOperands .smPollSelect),
  ("SOCK_REPLY.SOCKET", argsCur .sockReplySocket),
  ("SOCK_REPLY.CONNECT", argsCur .sockReplyConnect),
  ("SOCK_REPLY.CLOSE", argsCur .sockReplyClose),
  ("SOCK_REPLY.SELECT", argsCur .sockReplySelect),
  ("SOCK_REPLY.RECV", argsCur .sockReplyRecv),
  ("SOCK_REPLY.BIND|LISTEN|ACCEPT", fun
    | [.num n, .bytes args, .cur c] => (num16 n).map (fun o => .sockReplyServer o args c)
    | _ => none),
  ("SOCK_CLOSE_WAIT", wordOperand .sockCloseWait),
  ("SOCK_DATA", fun
    | [.bytes dargs, .num m] => some (.sockData dargs m)
    | _ => none),
  ("SOCK_CLOSE", natOperand .sockClose),
  ("SOCK_RECV", fun
    | [.num i, .num n] => some (.sockRecv i n)
    | _ => none),
  ("SEND_TO", fun
    | [.num i, .bytes data, .bytes addr] => some (.sendTo i data addr)
    | _ => none)]

/-- The operation a trace line writes (R91). -/
def decodeLine (line : TraceOp) : Decoded :=
  match traceTable.lookup line.name with
  | none => .rejected .unknownOperation
  | some f =>
    match f line.operands with
    | none => .rejected .badOperands
    | some i => .instr i

/-! ### Encoding -/

/-- An instruction's encoding: bytes at a place in a transaction, or a trace line (R8). -/
inductive Encoding
  | wire (site : WireSite) (bytes : List Byte)
  | line (op : TraceOp)
  deriving DecidableEq, Repr

/-- Decode either kind of encoding. -/
def decode (p : Params) (pending : Option Opcode) : Encoding → Decoded
  | .wire site bytes => decodeWire p pending site bytes
  | .line op => decodeLine op

/-- The encoding of an outbound command row. -/
def encodeCmd (p : Params) (c : CmdName) (args : List Byte) : Encoding :=
  .wire .txPacket (commandPayload p.tagCmd (p.opcodeOf c) args)

/-- The encoding of a received event row. -/
def encodeEvent (p : Params) (opcode : Opcode) (args : List Byte) : Encoding :=
  .wire .rxPacket (commandPayload p.tagEvent opcode args)

/-- A trace line. -/
def traceLine (name : String) (operands : List Operand) : Encoding := .line ⟨name, operands⟩

/-- The encoding of an operation: its wire form (R81 to R83), or its trace line (R91). -/
def encode (p : Params) : Instr → Encoding
  | .xportHdrWrite length => .wire .txHeader (transportHeaderBytes p.spiOpWrite length)
  | .xportHdrRead => .wire .txHeader (transportHeaderBytes p.spiOpRead 0)
  | .xportHdrReceived type length b0 b1 => .wire .rxHeader (receivedHeaderBytes p type length b0 b1)
  | .cmdHdr opcode args => .wire .txFormat (commandPayload p.tagCmd opcode args)
  | .eventHdr opcode args => .wire .rxFormat (commandPayload p.tagEvent opcode args)
  | .dataHdrOut dopcode args data => .wire .txFormat (dataPayload p dopcode args data)
  | .dataHdrIn dopcode args data => .wire .rxFormat (dataPayload p dopcode args data)
  | .pad => .wire .txPad [p.padByte]
  | .cmdStart args => encodeCmd p .start args
  | .replyStart args => encodeEvent p p.opcStart args
  | .cmdStatusGet args => encodeCmd p .statusGet args
  | .replyStatusGet args => encodeEvent p p.opcStatusGet args
  | .cmdBufferSize args => encodeCmd p .bufferSize args
  | .replyBufferSize args => encodeEvent p p.opcBufferSize args
  | .cmdWlanConnect args => encodeCmd p .wlanConnect args
  | .replyWlanConnect args => encodeEvent p p.opcWlanConnect args
  | .cmdSocket args => encodeCmd p .socket args
  | .replySocket args => encodeEvent p p.opcSocket args
  | .cmdBind args => encodeCmd p .bind args
  | .replyBind args => encodeEvent p p.opcBind args
  | .cmdRecv args => encodeCmd p .recv args
  | .replyRecv args => encodeEvent p p.opcRecv args
  | .cmdAccept args => encodeCmd p .accept args
  | .replyAccept args => encodeEvent p p.opcAccept args
  | .cmdListen args => encodeCmd p .listen args
  | .replyListen args => encodeEvent p p.opcListen args
  | .cmdConnect args => encodeCmd p .connect args
  | .replyConnect args => encodeEvent p p.opcConnect args
  | .cmdSelect args => encodeCmd p .select args
  | .replySelect args => encodeEvent p p.opcSelect args
  | .cmdClose args => encodeCmd p .close args
  | .replyClose args => encodeEvent p p.opcClose args
  | .evDhcp args => encodeEvent p p.evDhcp args
  | .evCloseWait args => encodeEvent p p.evCloseWait args
  | .evUnsolicitedOther opcode args => encodeEvent p opcode args
  | .replyOther opcode args => encodeEvent p opcode args
  | .replyUnexpected opcode args => encodeEvent p opcode args
  | .tagUnrecognised tag => .wire .rxPacket [tag]
  | .packetMalformed payload => .wire .rxPacket payload
  | .dataSendto args data => .wire .txPacket (dataPayload p p.dopcSendto args data)
  | .dataIn dopcode args data => .wire .rxPacket (dataPayload p dopcode args data)
  | .frameTransport type n => traceLine "FRAME_TRANSPORT" [.num type.toNat, .num n]
  | .frameReadHeader => traceLine "FRAME_READ_HEADER" []
  | .frameCommand opcode args => traceLine "FRAME_COMMAND" [.num opcode.toNat, .bytes args]
  | .frameData dopcode args data => traceLine "FRAME_DATA" [.num dopcode.toNat, .bytes args, .bytes data]
  | .parseTransport => traceLine "PARSE_TRANSPORT" []
  | .parseEventHeader => traceLine "PARSE_EVENT_HEADER" []
  | .parseDataHeader => traceLine "PARSE_DATA_HEADER" []
  | .start => traceLine "START" []
  | .issueCommand opcode args => traceLine "ISSUE_COMMAND" [.num opcode.toNat, .bytes args]
  | .issueData dopcode args data => traceLine "ISSUE_DATA" [.num dopcode.toNat, .bytes args, .bytes data]
  | .onInterrupt => traceLine "IRQ" []
  | .onInterruptCommandRequest => traceLine "ON_INTERRUPT.CommandRequest" []
  | .onInterruptDataRequest => traceLine "ON_INTERRUPT.DataRequest" []
  | .onInterruptReadHeader => traceLine "ON_INTERRUPT.StartSequence|AwaitingReply|Idle|ReceivingData" []
  | .onInterruptUnhandled => traceLine "ON_INTERRUPT.Init_SendingCommand_SendingData_ReadingHead" []
  | .onTransportComplete rx => traceLine "XFER_DONE" [.bytes rx]
  | .onTransportCompleteSendingCommand n => traceLine "ON_TRANSPORT_COMPLETE.SendingCommand" [.num n]
  | .onTransportCompleteSendingData n => traceLine "ON_TRANSPORT_COMPLETE.SendingData" [.num n]
  | .onTransportCompleteReadingHeader => traceLine "ON_TRANSPORT_COMPLETE.ReadingHeader" []
  | .onTransportCompleteReadingPayload n => traceLine "ON_TRANSPORT_COMPLETE.ReadingPayload" [.num n]
  | .finishReceive => traceLine "finish_receive" []
  | .onTransportCompleteNoTransaction => traceLine "ON_TRANSPORT_COMPLETE.no_transaction" []
  | .poll dt => traceLine "POLL" [.num dt.toNat]
  | .pollDispatch => traceLine "POLL.P1_dispatch" []
  | .pollDrainLatchedInterrupt => traceLine "POLL.P2_drain_latched_interrupt" []
  | .pollStatusTimer dt => traceLine "POLL.P3_status_timer" [.num dt.toNat]
  | .pollSocketManager dt => traceLine "POLL.P4_socket_manager" [.num dt.toNat]
  | .setState target => traceLine "set_state" [.state target]
  | .wlanConnect => traceLine "WLAN_CONNECT" []
  | .getWlanStatus => traceLine "GET_WLAN_STATUS" []
  | .getBuffers => traceLine "GET_BUFFERS" []
  | .getIpConfig => traceLine "GET_IP_CONFIG" []
  | .dispatch => traceLine "DISPATCH" []
  | .dispatchResume => traceLine "DISPATCH.resume" []
  | .dispatchData => traceLine "DISPATCH.data" []
  | .dispatchEvent => traceLine "DISPATCH.event" []
  | .dispatchUnsolicited opcode args => traceLine "DISPATCH.unsolicited" [.num opcode.toNat, .bytes args]
  | .dispatchMatchingReply opcode args => traceLine "DISPATCH.matching_reply" [.num opcode.toNat, .bytes args]
  | .sockAdd family type protocol address =>
    traceLine "SOCK_ADD" [.num family.toNat, .num type.toNat, .num protocol.toNat, .bytes address]
  | .sockLookup descriptor => traceLine "SOCK_LOOKUP" [.num descriptor.toNat]
  | .sockIssue slot opcode args => traceLine "sock_issue" [.num slot, .num opcode.toNat, .bytes args]
  | .smPoll dt => traceLine "SM_POLL" [.num dt.toNat]
  | .smPollInit slot => traceLine "SM_POLL.Init" [.num slot]
  | .smPollCreated slot => traceLine "SM_POLL.Created" [.num slot]
  | .smPollFailed slot dt => traceLine "SM_POLL.Failed" [.num slot, .num dt.toNat]
  | .smPollReady slot => traceLine "SM_POLL.Ready" [.num slot]
  | .smPollCloseWait slot => traceLine "SM_POLL.CloseWait" [.num slot]
  | .smPollOtherStates slot => traceLine "SM_POLL.other_states" [.num slot]
  | .smPollSelect => traceLine "SM_POLL.select" []
  | .sockReplySocket args cur => traceLine "SOCK_REPLY.SOCKET" [.bytes args, .cur cur]
  | .sockReplyConnect args cur => traceLine "SOCK_REPLY.CONNECT" [.bytes args, .cur cur]
  | .sockReplyClose args cur => traceLine "SOCK_REPLY.CLOSE" [.bytes args, .cur cur]
  | .sockReplySelect args cur => traceLine "SOCK_REPLY.SELECT" [.bytes args, .cur cur]
  | .sockReplyRecv args cur => traceLine "SOCK_REPLY.RECV" [.bytes args, .cur cur]
  | .sockReplyServer opcode args cur =>
    traceLine "SOCK_REPLY.BIND|LISTEN|ACCEPT" [.num opcode.toNat, .bytes args, .cur cur]
  | .sockCloseWait descriptor => traceLine "SOCK_CLOSE_WAIT" [.num descriptor.toNat]
  | .sockData dargs m => traceLine "SOCK_DATA" [.bytes dargs, .num m]
  | .sockClose slot => traceLine "SOCK_CLOSE" [.num slot]
  | .sockRecv slot length => traceLine "SOCK_RECV" [.num slot, .num length]
  | .sendTo slot data address => traceLine "SEND_TO" [.num slot, .bytes data, .bytes address]

/-- Whether `pending_command` has a value under which the row is the one its bytes mean: a reply row answers the
pending command, an unexpected reply does not (R89). Other rows do not depend on it. -/
def pendingFits (p : Params) (pending : Option Opcode) : Instr → Bool
  | .replyStart _ => pending == some p.opcStart
  | .replyStatusGet _ => pending == some p.opcStatusGet
  | .replyBufferSize _ => pending == some p.opcBufferSize
  | .replyWlanConnect _ => pending == some p.opcWlanConnect
  | .replySocket _ => pending == some p.opcSocket
  | .replyBind _ => pending == some p.opcBind
  | .replyRecv _ => pending == some p.opcRecv
  | .replyAccept _ => pending == some p.opcAccept
  | .replyListen _ => pending == some p.opcListen
  | .replyConnect _ => pending == some p.opcConnect
  | .replySelect _ => pending == some p.opcSelect
  | .replyClose _ => pending == some p.opcClose
  | .replyOther opcode _ => pending == some opcode
  | .replyUnexpected opcode _ => pending != some opcode
  | _ => true

/-! ### The opcode table's words -/

/-- The bytes a table row's `nbits` bits are, wire byte 0 first: the table writes wire byte 0 as the most significant
byte. -/
def tableHead (nbits w : Nat) : List Byte :=
  (List.range (nbits / 8)).map fun j => BitVec.ofNat 8 (w >>> (nbits - 8 * (j + 1)))

/-- How many bytes the instruction has above its row's bits: the arguments a four-byte header counts, the arguments
and data a data header counts (at most what a packet of the default `BUF_SIZE` holds). -/
def tableTail : List Byte → Nat
  | [_, _, _, k] => k.toNat
  | [tag, _, k, lo, hi] =>
    if tag = defaultParams.tagData then min (k.toNat + (le16 lo hi).toNat) (defaultParams.bufSize - 10) else 0
  | _ => 0

/-- The bytes of a table word: its row's, then a zero for every byte the instruction has above them. -/
def tableBytes (nbits w : Nat) : List Byte :=
  tableHead nbits w ++ List.replicate (tableTail (tableHead nbits w)) 0

/-- The opcode a 32-bit table word holds at wire bytes 1 and 2 (R82). -/
def tableOpcode (nbits w : Nat) : Opcode :=
  match tableHead nbits w with
  | _ :: lo :: hi :: _ => le16 lo hi
  | _ => 0

/-- Where the bytes of a table word stand, by the row's width and tag (log 20): no bits is an empty payload, one byte
is the padding byte when it has its value and a payload's tag otherwise, four bytes are a command or an event header,
five bytes a transport header or a data header. A command or event header is read by its opcode when that is a named
one or, for an event, unsolicited, and by its format otherwise. -/
def tableSite (nbits w : Nat) : WireSite :=
  let p := defaultParams
  let opcode := tableOpcode nbits w
  match tableHead nbits w with
  | [b] => if b = p.padByte then .txPad else .rxPacket
  | [tag, _, _, _] =>
    if tag = p.tagCmd then (if p.named opcode then .txPacket else .txFormat)
    else if tag = p.tagEvent then
      if p.named opcode || !(opcode.ult unsolThreshold) then .rxPacket else .rxFormat
    else .rxPacket
  | [b0, b1, _, b3, b4] =>
    if b0 = p.tagData then (if b1 = p.dopcSendto then .txPacket else .rxPacket)
    else if (b0 = p.spiOpWrite ∨ b0 = p.spiOpRead) ∧ b3 = 0 ∧ b4 = 0 then .txHeader
    else .rxHeader
  | _ => .rxPacket

/-- The `pending_command` a table word's row supposes: a named reply answers the command that is pending (R165). -/
def tablePending (nbits w : Nat) : Option Opcode :=
  if nbits = 32 ∧ tableSite nbits w = .rxPacket ∧ defaultParams.named (tableOpcode nbits w) then
    some (tableOpcode nbits w)
  else none

/-- The operation the decoder reads from a word of spec/opcode_table.json. -/
def decodeTableWord (nbits w : Nat) : Option Instr :=
  (decodeWire defaultParams (tablePending nbits w) (tableSite nbits w) (tableBytes nbits w)).toOption

end Sys2Proof
end

