-- ==== Sys2Proof/Machine/State.lean ====
section
/-! DEFINITION. The state of the block (10_state): the driver context, the socket manager with its table, the two
buffers, the effect history (R11), the fixed parameters (R5, R6), and the environment the agents of R12 make up. -/

namespace Sys2Proof.Machine

/-- The values of a socket's lifecycle state, in the order of R39. -/
inductive SockState
  | init
  | creating
  | created
  | binding
  | bound
  | listening
  | accepting
  | connecting
  | ready
  | closeWait
  | closing
  | failed
  deriving DecidableEq, Repr, Inhabited

/-- What reading the interrupt line's level returns (R11); asserted is low (N3). -/
inductive Level
  | asserted
  | idle
  deriving DecidableEq, Repr

/-- The kinds of transaction (R65). -/
inductive XferKind
  | tx
  | exchange
  | rx
  deriving DecidableEq, Repr

/-- A transaction: its kind and its number of bytes (R34, R65). -/
structure Xfer where
  kind : XferKind
  n : Nat
  deriving DecidableEq, Repr

/-- The three error kinds (R230). -/
inductive OpError
  | busy
  | invalid
  | invalidState
  deriving DecidableEq, Repr

/-- How an operation that may be refused ended. -/
inductive Status
  | ok
  | err (e : OpError)
  deriving DecidableEq, Repr

/-- The dispatcher's verdict on a packet (R160). -/
inductive Verdict
  | data
  | reply (opcode : Opcode)
  | unsolicited (opcode : Opcode)
  | unrecognized (opcode : Opcode)
  | invalid
  deriving DecidableEq, Repr

/-- The effects of R11. Reading the interrupt level carries the value it returned. -/
inductive Effect
  | cs (v : Bool)
  | intEn (v : Bool)
  | chipEn (v : Bool)
  | irqLevel (v : Level)
  | delay (us : Nat)
  | xfer (kind : XferKind) (n : Nat)
  | xferBlocking (kind : XferKind) (n : Nat)
  | obsTransition (old new : DrvState)
  | obsCommand (opcode : Opcode)
  | obsEvent (opcode : Opcode) (args : List Byte) (argLen : Nat)
  | obsData (dopcode : Byte) (dargs data : List Byte)
  deriving DecidableEq, Repr

/-- What the last operation returned (log 22). `held` is START waiting for the chip's first ready level (R120). -/
inductive OpResult
  | nothing
  | ok
  | okSlot (slot : Nat)
  | raised (e : OpError)
  | held
  | length (n : Nat)
  | transport (type : Byte) (length : Nat)
  | event (header : Option EventHeader)
  | data (header : Option DataHeader)
  | slot (found : Option Nat)
  | verdict (v : Verdict)
  | wlanStatus (v : Word32)
  | buffers (v : BitVec 16)
  | ipConfig (v : List Byte)
  deriving DecidableEq, Repr

/-- A socket context (R38 to R44). -/
structure Socket where
  state : SockState
  descriptor : Word32
  family : Word32
  type : Word32
  protocol : Word32
  address : List Byte
  retryTimeout : Word32
  readable : Bool
  rxCount : Nat
  rxBytes : Nat
  deriving DecidableEq, Repr, Inhabited

end Sys2Proof.Machine

namespace Sys2Proof.Config

/-- What the `k`-th per-slot rule run by itself on a free slot finds there: any context (R35; log 19). -/
opaque freeSlot : Nat → Machine.Socket

end Sys2Proof.Config

namespace Sys2Proof.Machine

/-- The registers of the driver context (R21 to R34), but for the two buffers. -/
structure Driver where
  state : DrvState
  pendingCommand : Option Opcode
  transmitLength : BitVec 16
  wlanStatus : Word32
  ipConfig : List Byte
  buffersAvailable : BitVec 16
  interruptPending : Bool
  dhcpComplete : Bool
  statInterrupts : Nat
  statSpiCompletions : Nat
  statCommands : Nat
  statEvents : Nat
  statUnsolicited : Nat
  statBytesTx : Nat
  statBytesRx : Nat
  statUnhandledInterrupts : Nat
  unhandledState : Option DrvState
  statusTimer : Word32
  cs : Bool
  intEn : Bool
  chipEn : Bool
  xfer : Option Xfer
  deriving DecidableEq, Repr

/-- The socket manager (R35 to R37). `current` is R36's valid bit and 3-bit slot index. `table` lists the contexts of the slots in use, slot 0 first; the slots after
them are free, and what a free slot holds is never read (R35; log 6, log 19). -/
structure SocketManager where
  table : List Socket
  current : Option Slot
  selectPending : Bool
  deriving DecidableEq, Repr

/-- `SM.count`, the number of slots in use (R35). -/
def SocketManager.count (m : SocketManager) : Nat := m.table.length

/-- One of the two byte buffers (R23, R60): the bytes that are not what an unwritten address reads as, by strictly
rising address (log 4). -/
abbrev Memory := List Host.Cell

/-- What the environment does next (R12, R91). -/
inductive Stimulus
  /-- A line of the trace notation, with the levels `irq=` supplies to the step (log 8). -/
  | line (op : TraceOp) (irq : List Level)
  /-- A wire form at its place in a transaction (R80). -/
  | wire (site : WireSite) (bytes : List Byte)
  /-- A falling edge of the chip's interrupt line, at the host's interrupt controller (R235, R236). -/
  | edge
  deriving DecidableEq, Repr

/-- The environment (R12): the model's own fields, not state of the block (R47; log 7, 8, 12, 14, 15, 19). -/
structure Env where
  schedule : List Stimulus
  level : Level
  levels : List Level
  heldEdge : Bool
  chipDraws : Nat
  slotDraws : Nat
  wireOut : List (List Byte)
  deriving DecidableEq, Repr

/-- The whole state. `cfg` is fixed: no step writes it. -/
structure State where
  cfg : Params
  drv : Driver
  sm : SocketManager
  tx : Memory
  rx : Memory
  effects : List Effect
  result : OpResult
  env : Env
  deriving DecidableEq, Repr

/-- Why the machine stops with a fault. -/
inductive Fault
  /-- A received length that does not fit RX (R131, R248, U5). Raised by ON_TRANSPORT_COMPLETE in ReadingHeader. The
  spec's own fault: safe. -/
  | rxOverflow
  deriving DecidableEq, Repr

/-- Why a step has no meaning. -/
inductive Refusal
  /-- An instruction without a meaning yet; raised by `exec`'s refused arms. Safe. -/
  | notModelled (mnemonic : String)
  /-- The schedule's next entry is no encoding of an operation (R90, R91). Raised by `step`. Safe. -/
  | undecodable (e : DecodeError)
  deriving DecidableEq, Repr

/-- Reset is the creation of the driver context (R48, R260). -/
def State.reset : State where
  cfg := defaultParams
  drv := {
    state := .init
    pendingCommand := none
    transmitLength := 0
    wlanStatus := defaultParams.wlanDisconnected
    ipConfig := []
    buffersAvailable := 0
    interruptPending := false
    dhcpComplete := false
    statInterrupts := 0
    statSpiCompletions := 0
    statCommands := 0
    statEvents := 0
    statUnsolicited := 0
    statBytesTx := 0
    statBytesRx := 0
    statUnhandledInterrupts := 0
    unhandledState := none
    statusTimer := 0
    cs := false
    intEn := false
    chipEn := false
    xfer := none }
  sm := { table := [], current := none, selectPending := false }
  tx := []
  rx := []
  effects := []
  result := .nothing
  env := {
    schedule := []
    level := .idle
    levels := []
    heldEdge := false
    chipDraws := 0
    slotDraws := 0
    wireOut := [] }

end Sys2Proof.Machine
end

