-- ==== Sys2Proof/Machine/Ops.lean ====
section
/-! DEFINITION. The named operations over buffers, effects and registers that every meaning is written with, and the
two ways an operation ends: `raise` (an error outcome, the block's exception, R8, R230) and `finish` (its return). -/

namespace Sys2Proof.Machine

/-! ### The buffers (R60, R63, log 4) -/

/-- What a byte nothing has written reads as. DESIGN CHOICE (U1 leaves it open; log 4). -/
def unwrittenByte : Byte := 0x00#8

/-- One byte of a buffer. -/
def memRead : Memory → Nat → Byte
  | [], _ => unwrittenByte
  | (c, v) :: rest, a => if c = a then v else memRead rest a

/-- The buffer with nothing listed at `a`. -/
def memErase (m : Memory) (a : Nat) : Memory := m.filter fun cell => decide (cell.1 ≠ a)

/-- The buffer with `(a, b)` listed before the first higher address. -/
def memInsert : Memory → Nat → Byte → Memory
  | [], a, b => [(a, b)]
  | (c, v) :: rest, a, b => if a < c then (a, b) :: (c, v) :: rest else (c, v) :: memInsert rest a b

/-- Write one byte, keeping the canonical form: rising addresses, no entry equal to an unwritten byte. -/
def memWrite (m : Memory) (a : Nat) (b : Byte) : Memory :=
  if b = unwrittenByte then memErase m a else memInsert (memErase m a) a b

/-- `MemRead(_, a, n)` (R10): `n` bytes from address `a`. -/
def memReadBytes (m : Memory) (a n : Nat) : List Byte := (List.range n).map fun j => memRead m (a + j)

/-- `MemWrite(_, a, n, bytes)` (R10): byte by byte, lowest address first. -/
def memWriteBytes : Memory → Nat → List Byte → Memory
  | m, _, [] => m
  | m, a, b :: rest => memWriteBytes (memWrite m a b) (a + 1) rest

/-- The canonical form of a buffer: addresses strictly rising, no entry an unwritten address would give. -/
def Memory.wf (m : Memory) : Bool :=
  m.all (fun cell => cell.2 != unwrittenByte) && decide ((m.map Prod.fst).Pairwise (· < ·))

/-- Every listed address lies in a buffer of `size` bytes (R60). -/
def Memory.within (size : Nat) (m : Memory) : Bool := m.all fun cell => decide (cell.1 < size)

/-- Write bytes into a buffer of `size` bytes: those that fall past its end have no place and are not kept. DESIGN
CHOICE (R60, R71 give the buffers no such address; log 19). -/
def bufWriteBytes (size : Nat) (m : Memory) (a : Nat) (bytes : List Byte) : Memory :=
  memWriteBytes m a (bytes.take (size - a))

/-- Write bytes into TX. -/
def writeTx (a : Nat) (bytes : List Byte) (s : State) : State :=
  { s with tx := bufWriteBytes s.cfg.bufSize s.tx a bytes }

/-- Write bytes into RX. -/
def writeRx (a : Nat) (bytes : List Byte) (s : State) : State :=
  { s with rx := bufWriteBytes s.cfg.bufSize s.rx a bytes }

/-- One byte of TX; past its end any byte (log 19). -/
def txByte (s : State) (a : Nat) : Byte := if a < s.cfg.bufSize then memRead s.tx a else Config.txBeyond s.tx a

/-- One byte of RX; past its end any byte (log 19). -/
def rxByte (s : State) (a : Nat) : Byte := if a < s.cfg.bufSize then memRead s.rx a else Config.rxBeyond s.rx a

/-- `MemRead(TX, a, n)` (R10). -/
def readTx (a n : Nat) (s : State) : List Byte := (List.range n).map fun j => txByte s (a + j)

/-- `MemRead(RX, a, n)` (R10). -/
def readRx (a n : Nat) (s : State) : List Byte := (List.range n).map fun j => rxByte s (a + j)

/-- A frame's length in the 16 bits of `transmit_length` (R24); one that does not fit leaves any value (log 19). -/
def heldLength (n : Nat) : BitVec 16 := if n ≤ 65535 then BitVec.ofNat 16 n else Config.lengthBeyond n

/-- `DRV.transmit_length <- n` (R24). -/
def setTransmitLength (n : Nat) (s : State) : State :=
  { s with drv := { s.drv with transmitLength := heldLength n } }

/-! ### Effects (R11) -/

/-- `emit X`: append an effect to the history (R11). -/
def emit (e : Effect) (s : State) : State := { s with effects := s.effects ++ [e] }

/-- `emit CS(v)`, with its shadow (R33). -/
def driveCs (v : Bool) (s : State) : State := emit (.cs v) { s with drv := { s.drv with cs := v } }

/-- `emit INT_EN(v)`, with its shadow (R33). -/
def driveIntEn (v : Bool) (s : State) : State := emit (.intEn v) { s with drv := { s.drv with intEn := v } }

/-- `emit CHIP_EN(v)`, with its shadow (R33). -/
def driveChipEn (v : Bool) (s : State) : State := emit (.chipEn v) { s with drv := { s.drv with chipEn := v } }

/-- What the environment holds after one read of the level: the next supplied level, the last one staying (log 8). -/
def Env.afterRead (e : Env) : Env :=
  match e.levels with
  | [] => e
  | l :: rest => { e with level := l, levels := rest }

/-- `IRQ_LEVEL()`: the level the environment supplies, and the state after reading it (R11, R91). -/
def readIrqLevel (s : State) : Level × State :=
  (s.env.level, emit (.irqLevel s.env.level) { s with env := s.env.afterRead })

/-- `set_state(S)` (R141): the only writer of `DRV.state`; the observer is called also when nothing changes. -/
def setState (target : DrvState) (s : State) : State :=
  emit (.obsTransition s.drv.state target) { s with drv := { s.drv with state := target } }

/-- `emit XFER(kind, n)` (R11, R34). -/
def requestXfer (kind : XferKind) (n : Nat) (s : State) : State :=
  emit (.xfer kind n) { s with drv := { s.drv with xfer := some ⟨kind, n⟩ } }

/-- The transport sends `TX[0 .. n-1]` to the chip (R65, R73; log 15). -/
def sendOnWire (n : Nat) (s : State) : State :=
  { s with env := { s.env with wireOut := s.env.wireOut ++ [readTx 0 n s] } }

/-- The transaction is over for the block: no transaction in flight, one completion counted (R128). -/
def closeXfer (s : State) : State :=
  { s with drv := { s.drv with xfer := none, statSpiCompletions := s.drv.statSpiCompletions + 1 } }

/-- Bytes of an outbound transaction that has completed (R30). -/
def countBytesTx (n : Nat) (s : State) : State :=
  { s with drv := { s.drv with statBytesTx := s.drv.statBytesTx + n } }

/-- Bytes of an inbound transaction that has completed (R30). -/
def countBytesRx (n : Nat) (s : State) : State :=
  { s with drv := { s.drv with statBytesRx := s.drv.statBytesRx + n } }

/-- A command is recorded as pending, counted and reported (R120, R121). -/
def recordCommand (opcode : Opcode) (s : State) : State :=
  emit (.obsCommand opcode)
    { s with drv := { s.drv with pendingCommand := some opcode, statCommands := s.drv.statCommands + 1 } }

/-! ### The socket table (R35, R190) -/

/-- The context of slot `i`, if the slot is in use. -/
def socketAt (s : State) (i : Nat) : Option Socket := s.sm.table[i]?

/-- One more free slot's context has been drawn (log 19). -/
def drawSlot (s : State) : State := { s with env := { s.env with slotDraws := s.env.slotDraws + 1 } }

/-- Replace the context of slot `i` by `f` of it; a free slot keeps nothing (R35; log 19). -/
def updateSocket (i : Nat) (f : Socket → Socket) (s : State) : State :=
  { s with sm := { s.sm with table := s.sm.table.modify i f } }

/-- `SOCK[i].state <- S`. -/
def setSockState (i : Nat) (target : SockState) (s : State) : State :=
  updateSocket i (fun k => { k with state := target }) s

/-- The 3-bit index of slot `n` (R36). The spec has no slot of index 8 or more and says nothing of one: the index is
then any index. DESIGN CHOICE (log 19). -/
def slotIndex (n : Nat) : Slot := if h : n < sockSlots then ⟨n, h⟩ else Config.slotBeyond n

/-- `SM.current <- cur` (R36). -/
def setCurrent (cur : Option Slot) (s : State) : State := { s with sm := { s.sm with current := cur } }

/-! ### How an operation ends (R230, R10) -/

/-- The outcome of an operation of the block. -/
abbrev Outcome := Host.Outcome State Fault Refusal

/-- `raise E` (R10, R230): the block's exception. The error is returned to the caller; it saves nothing and changes
nothing beyond what the rule has already done. -/
def raise (e : OpError) (s : State) : State := { s with result := .raised e }

/-- The return of an operation that ends with success: its value goes to the caller, nothing is restored (R242). -/
def finish (r : OpResult) (s : State) : State := { s with result := r }

/-- The end of an operation that may have been refused. -/
def finishStatus (r : State × Status) : State :=
  match r.2 with
  | .ok => finish .ok r.1
  | .err e => raise e r.1

/-- The next state of an operation that returned `r`. -/
def done (r : OpResult) (s : State) : Outcome := .next (finish r s)

end Sys2Proof.Machine
end

