-- ==== Sys2Proof/Machine/Flags.lean ====
section
/-! DEFINITION. The block's flags: `interrupt_pending` (R28), `dhcp_complete` (R29), `select_pending` (R37) and
`readable` (R43), and the tests rules make of registers. -/

namespace Sys2Proof.Machine

/-- `DRV.interrupt_pending <- v` (R28). -/
def setInterruptPending (v : Bool) (s : State) : State :=
  { s with drv := { s.drv with interruptPending := v } }

/-- The DHCP event's two writes: `DRV.ip_config <- v`, `DRV.dhcp_complete <- 1` (R29, R170). -/
def recordIpConfig (v : List Byte) (s : State) : State :=
  { s with drv := { s.drv with ipConfig := v, dhcpComplete := true } }

/-- `SM.select_pending <- v` (R37). -/
def setSelectPending (v : Bool) (s : State) : State := { s with sm := { s.sm with selectPending := v } }

/-- `SOCK[i].readable <- v` (R43). -/
def setReadable (i : Nat) (v : Bool) (s : State) : State := updateSocket i (fun k => { k with readable := v }) s

/-- The driver is free to accept a command: `Idle` with none pending (glossary, R121). -/
def driverFree (s : State) : Bool := decide (s.drv.state = .idle) && s.drv.pendingCommand.isNone

/-- The network is up: connected and configured (R139). -/
def networkUp (s : State) : Bool := decide (s.drv.wlanStatus = s.cfg.wlanConnected) && s.drv.dhcpComplete

/-- A descriptor the select mask has a bit for: 0 to 31 (R201, D39). -/
def selectable (descriptor : Word32) : Bool := decide (0 ≤ descriptor.toInt) && decide (descriptor.toInt ≤ 31)

/-- A 32-bit timer advanced by `dt`, saturating at `2^32 - 1` (R32, R138). -/
def saturatingAdd (t dt : Word32) : Word32 := BitVec.ofNat 32 (min (t.toNat + dt.toNat) (2 ^ 32 - 1))

/-- A 32-bit countdown by `dt`, stopping at zero (R197). -/
def countdown (t dt : Word32) : Word32 := t - BitVec.ofNat 32 (min dt.toNat t.toNat)

end Sys2Proof.Machine
end

