-- ==== Sys2Proof/Machine/Framer.lean ====
section
/-! DEFINITION. The packet framer (40_framer): `FRAME_*` fill TX and `DRV.transmit_length`, `PARSE_*` read RX; and the
format rows of the opcode table that are one framer operation each. No framer operation emits an effect (R109). -/

namespace Sys2Proof.Machine

/-- The padded payload length `P'` (R84, R100): one more when `5 + P` is odd. -/
def paddedLength (payloadLen : Nat) : Nat := if (5 + payloadLen) % 2 = 1 then payloadLen + 1 else payloadLen

/-- The padding bytes of a payload of `payloadLen` bytes: one, or none (R84). -/
def padding (p : Params) (payloadLen : Nat) : List Byte := if (5 + payloadLen) % 2 = 1 then [p.padByte] else []

/-- `FRAME_TRANSPORT(type, P)` (R100). -/
def frameTransport (type : Byte) (payloadLen : Nat) (s : State) : State × Nat :=
  let s := writeTx (5 + payloadLen) (padding s.cfg payloadLen) s
  let s := writeTx 0 (transportHeaderBytes type (BitVec.ofNat 16 (paddedLength payloadLen))) s
  (setTransmitLength (5 + paddedLength payloadLen) s, 5 + paddedLength payloadLen)

/-- `FRAME_READ_HEADER()` (R101). -/
def frameReadHeader (s : State) : State :=
  setTransmitLength 5 (writeTx 0 (transportHeaderBytes s.cfg.spiOpRead 0) s)

/-- `FRAME_COMMAND(opcode, args)` (R102): `none` is `raise Invalid`, before any write. -/
def frameCommand (opcode : Opcode) (args : List Byte) (s : State) : Option (State × Nat) :=
  if args.length > 255 then none
  else if 5 + (4 + args.length) + 1 > s.cfg.bufSize then none
  else
    some (frameTransport s.cfg.spiOpWrite (4 + args.length)
      (writeTx 5 (commandPayload s.cfg.tagCmd opcode args) s))

/-- Whether `FRAME_DATA` would raise `Invalid` (R103). -/
def frameDataInvalid (p : Params) (args data : List Byte) : Bool :=
  decide (args.length > 255) || decide (dataPlen p args.length data.length > 65535) ||
    decide (5 + (5 + args.length + data.length) + 1 > p.bufSize)

/-- `FRAME_DATA(dopcode, args, data)` (R103): `none` is `raise Invalid`, before any write. -/
def frameData (dopcode : Byte) (args data : List Byte) (s : State) : Option (State × Nat) :=
  if frameDataInvalid s.cfg args data then none
  else
    some (frameTransport s.cfg.spiOpWrite (5 + args.length + data.length)
      (writeTx 5 (dataPayload s.cfg dopcode args data) s))

/-- The fields of the received transport header in `RX[0..4]` (R104). -/
def receivedHeader (s : State) : Byte × BitVec 16 × Byte × Byte :=
  parseReceivedHeader s.cfg (memRead s.rx 0) (memRead s.rx 1) (memRead s.rx 2) (memRead s.rx 3) (memRead s.rx 4)

/-- `L` of `PARSE_TRANSPORT()` (R104). -/
def receivedLength (s : State) : Nat := (receivedHeader s).2.1.toNat

/-- The payload of the packet in RX: `RX[5 .. 5+L-1]` (R67, R133). -/
def receivedPayload (s : State) : List Byte := readRx 5 (receivedLength s) s

/-- `PARSE_EVENT_HEADER()` (R105). -/
def parseEventHeader (s : State) : Option EventHeader := parseEventPayload (receivedPayload s)

/-- `PARSE_DATA_HEADER()` (R106). -/
def parseDataHeader (s : State) : Option DataHeader := parseDataPayload s.cfg (receivedPayload s)

/-- End of a framing operation: the total length, or `Invalid`. -/
def finishFrame (s : State) : Option (State × Nat) → Outcome
  | none => .next (raise .invalid s)
  | some (t, n) => done (.length n) t

/-! ### Format rows -/

/-- XPORT_HDR_WRITE (R81, R100): the header of an outbound frame whose padded payload has `length` bytes. An even
length, whose total is odd, the framer never makes (R84): by itself the row takes it as it takes any other, and
`transmit_length` is then odd. DESIGN CHOICE (log 17). -/
def execXportHdrWrite (length : BitVec 16) (s : State) : Outcome :=
  done (.length (5 + length.toNat))
    (setTransmitLength (5 + length.toNat) (writeTx 0 (transportHeaderBytes s.cfg.spiOpWrite length) s))

/-- XPORT_HDR_READ (R81, R101): the header that opens a read. -/
def execXportHdrRead (s : State) : Outcome := done (.length 5) (frameReadHeader s)

/-- XPORT_HDR_RECEIVED (R67, R104): the chip's five bytes stand in `RX[0..4]` and say type and length. -/
def execXportHdrReceived (type : Byte) (length : BitVec 16) (busy0 busy1 : Byte) (s : State) : Outcome :=
  let t := writeRx 0 (receivedHeaderBytes s.cfg type length busy0 busy1) s
  done (.transport (receivedHeader t).1 (receivedLength t)) t

/-- CMD_HDR (R82, R102): the framer builds a command frame. -/
def execCmdHdr (opcode : Opcode) (args : List Byte) (s : State) : Outcome :=
  finishFrame s (frameCommand opcode args s)

/-- DATA_HDR_OUT (R83, R103): the framer builds a data frame. -/
def execDataHdrOut (dopcode : Byte) (args data : List Byte) (s : State) : Outcome :=
  finishFrame s (frameData dopcode args data s)

/-- PAD (R64, R84, R100): when the frame in TX has odd length, one padding byte follows it, and the transport header
carries the padded length; an even frame is left alone (log 17). The read header (transmit length 5), which the framer
never pads (R64, R101), is padded by this row when it is run over it, as any other odd frame: TX[5] holds the byte, the
header's length is 1, transmit_length 6; no rule gives PAD an operation or runs it there. DESIGN CHOICE (log 17). A frame that ends with TX, or a total that needs 17 bits,
is log 19's. -/
def execPad (s : State) : Outcome :=
  let n := s.drv.transmitLength.toNat
  if 5 ≤ n ∧ n % 2 = 1 then
    let t := writeTx n [s.cfg.padByte] s
    let t := writeTx 1 [hi8 (BitVec.ofNat 16 (n + 1 - 5)), lo8 (BitVec.ofNat 16 (n + 1 - 5))] t
    done (.length (n + 1)) (setTransmitLength (n + 1) t)
  else done (.length n) s

/-! ### Operation rows -/

/-- FRAME_TRANSPORT (R100). Its callers check that the padded frame fits TX (R102, R103); by itself it runs for any
length (log 19). -/
def execFrameTransport (type : Byte) (payloadLen : Nat) (s : State) : Outcome :=
  let r := frameTransport type payloadLen s
  done (.length r.2) r.1

/-- FRAME_READ_HEADER (R101). -/
def execFrameReadHeader (s : State) : Outcome := done (.length 5) (frameReadHeader s)

/-- FRAME_COMMAND (R102). -/
def execFrameCommand (opcode : Opcode) (args : List Byte) (s : State) : Outcome :=
  finishFrame s (frameCommand opcode args s)

/-- FRAME_DATA (R103). -/
def execFrameData (dopcode : Byte) (args data : List Byte) (s : State) : Outcome :=
  finishFrame s (frameData dopcode args data s)

/-- PARSE_TRANSPORT (R104). -/
def execParseTransport (s : State) : Outcome := done (.transport (receivedHeader s).1 (receivedLength s)) s

/-- PARSE_EVENT_HEADER (R105). -/
def execParseEventHeader (s : State) : Outcome := done (.event (parseEventHeader s)) s

/-- PARSE_DATA_HEADER (R106). -/
def execParseDataHeader (s : State) : Outcome := done (.data (parseDataHeader s)) s

end Sys2Proof.Machine
end

