-- ==== Sys2Proof/Machine/Sequencer.lean ====
section
/-! DEFINITION. The command sequencer and buffer controller (41_sequencer): START, the two issue operations, the
interrupt handler and the completion handler, each by its rule's pseudocode. -/

namespace Sys2Proof.Machine

/-! ### Start (R120) -/

/-- The effects and writes of R120 once the line has read asserted, from `emit CS(1)` on. Arguments that cannot be framed
raise Invalid after the delay, with chip-select asserted: what the rule has done by then stays done (R10, R102; log 9). -/
def startHandshake (args : List Byte) (s : State) : State :=
  let s := emit (.delay s.cfg.startDelayUs) (driveCs true s)
  match frameCommand s.cfg.opcStart args s with
  | none => raise .invalid s
  | some (s, n) =>
    let s := emit (.xferBlocking .tx n) (recordCommand s.cfg.opcStart s)
    let s := countBytesTx n (sendOnWire n s)
    finish .ok (driveIntEn true (setState .startSequence (driveCs false s)))

/-- START (R120) with the handshake's argument bytes. While the line reads idle the operation is held: it has no step
yet, so nothing changes but the environment's supply of levels (log 9). -/
def startWith (args : List Byte) (s : State) : State :=
  if s.drv.state ≠ .init then raise .invalidState s
  else
    let t := readIrqLevel (driveChipEn true (driveIntEn false s))
    match t.1 with
    | .idle => finish .held { s with env := s.env.afterRead }
    | .asserted => startHandshake args t.2

/-! ### Issuing (R121, R122) -/

/-- The end of an accepted request: the new state, chip-select, the interrupt enabled (R121, R122). -/
def enterRequest (target : DrvState) (s : State) : State := driveIntEn true (driveCs true (setState target s))

/-- `ISSUE_COMMAND(opcode, args)` (R121). -/
def issueCommand (opcode : Opcode) (args : List Byte) (s : State) : State × Status :=
  if s.drv.pendingCommand ≠ none ∨ s.drv.state ≠ .idle then (s, .err .busy)
  else if args.length > 255 then (s, .err .invalid)
  else
    let t := readIrqLevel (driveIntEn false s)
    match t.1 with
    | .asserted => (driveIntEn true t.2, .err .busy)
    | .idle =>
      match frameCommand opcode args t.2 with
      | none => (t.2, .err .invalid)
      | some (u, _) => (enterRequest .commandRequest (recordCommand opcode u), .ok)

/-- `ISSUE_DATA(dopcode, args, data)` (R122). -/
def issueData (dopcode : Byte) (args data : List Byte) (s : State) : State × Status :=
  if s.drv.pendingCommand ≠ none ∨ s.drv.state ≠ .idle then (s, .err .busy)
  else if frameDataInvalid s.cfg args data then (s, .err .invalid)
  else
    let t := readIrqLevel (driveIntEn false s)
    match t.1 with
    | .asserted => (driveIntEn true t.2, .err .busy)
    | .idle =>
      match frameData dopcode args data t.2 with
      | none => (t.2, .err .invalid)
      | some (u, _) => (enterRequest .dataRequest u, .ok)

/-- `WLAN_CONNECT()` (R142) with the connect command's argument bytes. -/
def wlanConnectWith (args : List Byte) (s : State) : State × Status :=
  if s.drv.state ≠ .idle then (s, .err .invalid) else issueCommand s.cfg.opcWlanConnect args s

/-! ### The interrupt handler (R123 to R127) -/

/-- R124: in `CommandRequest` the chip takes the command. -/
def irqCommandRequest (s : State) : State :=
  requestXfer .tx s.drv.transmitLength.toNat (setState .sendingCommand (driveIntEn false s))

/-- R125: in `DataRequest` the chip takes the data frame. -/
def irqDataRequest (s : State) : State :=
  requestXfer .tx s.drv.transmitLength.toNat (setState .sendingData (driveIntEn false s))

/-- R126: the read-header sequence. -/
def readHeaderSequence (s : State) : State :=
  requestXfer .exchange spiHdrLen
    (setState .readingHeader (frameReadHeader (driveCs true (driveIntEn false s))))

/-- R127: the unhandled interrupt. -/
def irqUnhandled (s : State) : State :=
  setInterruptPending true
    { s with drv := { s.drv with
        statUnhandledInterrupts := s.drv.statUnhandledInterrupts + 1
        unhandledState := some s.drv.state } }

/-- R123's first line. -/
def countInterrupt (s : State) : State :=
  { s with drv := { s.drv with statInterrupts := s.drv.statInterrupts + 1 } }

/-- `ON_INTERRUPT()` (R123). With `int_en = 0` the host has broken its contract and the same rules give the result
(U10, log 10). -/
def onInterrupt (s : State) : State :=
  let s := countInterrupt s
  match s.drv.state with
  | .commandRequest => irqCommandRequest s
  | .dataRequest => irqDataRequest s
  | .startSequence | .awaitingReply | .idle | .receivingData => readHeaderSequence s
  | .init | .sendingCommand | .sendingData | .readingHeader | .readingPayload | .eventReady => irqUnhandled s

/-! ### The completion handler (R128 to R134) -/

/-- The `n` bytes the chip supplies to a transaction: those written out for the step, and free bytes for any that are
not (R249, U12; log 14). -/
def chipBytes (rx : List Byte) (n draws : Nat) : List Byte :=
  rx.take n ++ (List.range (n - rx.length)).map fun j => Config.chipByte (draws + j)

/-- Where a transaction puts the bytes the chip supplies (R65). -/
def depositAddress : XferKind → Option Nat
  | .tx => none
  | .exchange => some 0
  | .rx => some spiHdrLen

/-- What the transport has done when it reports the end of a transaction (R65): it has sent `TX[0 .. n-1]` (`Tx`,
`Exchange`) and stored what the chip supplied in RX (`Exchange`, `Rx`). -/
def transportDone (x : Xfer) (rx : List Byte) (s : State) : State :=
  let s := if x.kind = .rx then s else sendOnWire x.n s
  match depositAddress x.kind with
  | none => s
  | some a =>
    writeRx a (chipBytes rx x.n s.env.chipDraws)
      { s with env := { s.env with chipDraws := s.env.chipDraws + (x.n - rx.length) } }

/-- `finish_receive()` (R133). -/
def finishReceive (s : State) : State := driveIntEn true (setState .eventReady (driveCs false s))

/-- R129. -/
def completeSendingCommand (n : Nat) (s : State) : State :=
  driveIntEn true (setState .awaitingReply (driveCs false (countBytesTx n s)))

/-- R130. -/
def completeSendingData (n : Nat) (s : State) : State :=
  driveIntEn true (setState .idle (driveCs false (countBytesTx n s)))

/-- R131: `none` is `fault RxOverflow`. -/
def completeReadingHeader (s : State) : Option State :=
  let s := countBytesRx spiHdrLen s
  let len := receivedLength s
  if len = 0 then some (finishReceive s)
  else if 5 + len > s.cfg.bufSize then none
  else some (requestXfer .rx len (setState .readingPayload s))

/-- R132. -/
def completeReadingPayload (n : Nat) (s : State) : State := finishReceive (countBytesRx n s)

/-- R128 to R132 once a transaction is known to be in flight; `none` is `fault RxOverflow`. In a state that is none of
R128's four, which no run reaches (R34), the transaction is closed and nothing more happens (log 28). -/
def completeTransfer (x : Xfer) (rx : List Byte) (s : State) : Option State :=
  let s := closeXfer (transportDone x rx s)
  match s.drv.state with
  | .sendingCommand => some (completeSendingCommand x.n s)
  | .sendingData => some (completeSendingData x.n s)
  | .readingHeader => completeReadingHeader s
  | .readingPayload => some (completeReadingPayload x.n s)
  | _ => some s

/-- The end of a completion step. -/
def finishCompletion : Option State → Outcome
  | none => .fault .rxOverflow
  | some t => done .nothing t

/-! ### Operation rows -/

/-- START (R120). -/
def execStart (s : State) : Outcome := .next (startWith s.cfg.startArgs s)

/-- ISSUE_COMMAND (R121). -/
def execIssueCommand (opcode : Opcode) (args : List Byte) (s : State) : Outcome :=
  .next (finishStatus (issueCommand opcode args s))

/-- ISSUE_DATA (R122). -/
def execIssueData (dopcode : Byte) (args data : List Byte) (s : State) : Outcome :=
  .next (finishStatus (issueData dopcode args data s))

/-- ON_INTERRUPT (R123). -/
def execOnInterrupt (s : State) : Outcome := done .nothing (onInterrupt s)

/-- ON_INTERRUPT.CommandRequest (R124). -/
def execOnInterruptCommandRequest (s : State) : Outcome := done .nothing (irqCommandRequest s)

/-- ON_INTERRUPT.DataRequest (R125). -/
def execOnInterruptDataRequest (s : State) : Outcome := done .nothing (irqDataRequest s)

/-- ON_INTERRUPT.StartSequence|AwaitingReply|Idle|ReceivingData (R126). -/
def execOnInterruptReadHeader (s : State) : Outcome := done .nothing (readHeaderSequence s)

/-- ON_INTERRUPT.Init|SendingCommand|SendingData|ReadingHeader|ReadingPayload|EventReady (R127). -/
def execOnInterruptUnhandled (s : State) : Outcome := done .nothing (irqUnhandled s)

/-- ON_TRANSPORT_COMPLETE (R128): with no transaction in flight it is R134. -/
def execOnTransportComplete (rx : List Byte) (s : State) : Outcome :=
  match s.drv.xfer with
  | none => .next (raise .invalidState s)
  | some x => finishCompletion (completeTransfer x rx s)

/-- ON_TRANSPORT_COMPLETE.SendingCommand (R129). -/
def execOnTransportCompleteSendingCommand (n : Nat) (s : State) : Outcome :=
  done .nothing (completeSendingCommand n s)

/-- ON_TRANSPORT_COMPLETE.SendingData (R130). -/
def execOnTransportCompleteSendingData (n : Nat) (s : State) : Outcome :=
  done .nothing (completeSendingData n s)

/-- ON_TRANSPORT_COMPLETE.ReadingHeader (R131). -/
def execOnTransportCompleteReadingHeader (s : State) : Outcome := finishCompletion (completeReadingHeader s)

/-- ON_TRANSPORT_COMPLETE.ReadingPayload (R132). -/
def execOnTransportCompleteReadingPayload (n : Nat) (s : State) : Outcome :=
  done .nothing (completeReadingPayload n s)

/-- finish_receive (R133). -/
def execFinishReceive (s : State) : Outcome := done .nothing (finishReceive s)

/-- ON_TRANSPORT_COMPLETE.no_transaction (R134). -/
def execOnTransportCompleteNoTransaction (s : State) : Outcome := .next (raise .invalidState s)

/-- set_state (R141). -/
def execSetState (target : DrvState) (s : State) : Outcome := done .nothing (setState target s)

/-- WLAN_CONNECT (R142). -/
def execWlanConnect (s : State) : Outcome := .next (finishStatus (wlanConnectWith s.cfg.wlanConnectArgs s))

/-- GET_WLAN_STATUS (R143). -/
def execGetWlanStatus (s : State) : Outcome := done (.wlanStatus s.drv.wlanStatus) s

/-- GET_BUFFERS (R143). -/
def execGetBuffers (s : State) : Outcome := done (.buffers s.drv.buffersAvailable) s

/-- GET_IP_CONFIG (R143). -/
def execGetIpConfig (s : State) : Outcome := done (.ipConfig s.drv.ipConfig) s

end Sys2Proof.Machine
end

