-- ==== Sys2Proof/Machine/Sockets.lean ====
section
/-! DEFINITION. The socket table, the socket state machine and the socket manager (43_socket_table), each by its
rule's pseudocode. -/

namespace Sys2Proof.Machine

/-! ### The table (R190 to R193) -/

/-- The context `SOCK_ADD` fills a slot with (R191). -/
def newSocket (p : Params) (family type protocol : Word32) (address : List Byte) : Socket where
  state := .init
  descriptor := p.descInvalid
  family := family
  type := type
  protocol := protocol
  address := address
  retryTimeout := 0
  readable := false
  rxCount := 0
  rxBytes := 0

/-- `SOCK_ADD` (R191): the next free slot in ascending order, or `Invalid` at capacity. -/
def sockAdd (family type protocol : Word32) (address : List Byte) (s : State) : State :=
  if s.sm.count = sockSlots then raise .invalid s
  else
    finish (.okSlot s.sm.count)
      { s with sm := { s.sm with table := s.sm.table ++ [newSocket s.cfg family type protocol address] } }

/-- The descriptor is meaningful past the created transition (R40): neither `Init` nor `Creating`. -/
def Socket.hasDescriptor (k : Socket) : Bool := decide (k.state ≠ .init) && decide (k.state ≠ .creating)

/-- `SOCK_LOOKUP(d)` (R192): the lowest slot whose meaningful descriptor is `d`. -/
def sockLookup (descriptor : Word32) (s : State) : Option Nat :=
  s.sm.table.findIdx? fun k => k.hasDescriptor && k.descriptor == descriptor

/-- `sock_issue(i, opcode, args)` (R193). Nothing of the slot is read, so the command is issued for any `i`; for an
index of 8 or more, which is no slot's (R60(c)), `SM.current` names any slot. DESIGN CHOICE (log 19). -/
def sockIssue (i : Nat) (opcode : Opcode) (args : List Byte) (s : State) : State × Status :=
  match issueCommand opcode args s with
  | (t, .ok) => (setCurrent (some (slotIndex i)) t, .ok)
  | (t, .err e) => (t, .err e)

/-- Issue a command on behalf of slot `i` and, when it was accepted, change the slot's context; a refusal is absorbed
(R195 to R199). -/
def issueThen (i : Nat) (opcode : Opcode) (args : List Byte) (f : Socket → Socket) (s : State) : State :=
  match sockIssue i opcode args s with
  | (t, .ok) => updateSocket i f t
  | (t, .err _) => t

/-! ### The socket manager's poll step (R194 to R201) -/

/-- R195: a socket in `Init`. -/
def smInit (i : Nat) (k : Socket) (s : State) : State :=
  issueThen i s.cfg.opcSocket (argsCreate s.cfg.codec k.family k.type k.protocol)
    (fun k => { k with state := .creating }) s

/-- R196: a socket in `Created`. -/
def smCreated (i : Nat) (k : Socket) (s : State) : State :=
  if k.type = s.cfg.typeStream then
    issueThen i s.cfg.opcConnect (argsConnect s.cfg.codec k.descriptor k.address)
      (fun k => { k with state := .connecting }) s
  else setSockState i .ready s

/-- R197: a socket in `Failed`. -/
def smFailed (i : Nat) (dt : Word32) (k : Socket) (s : State) : State :=
  if k.retryTimeout = 0 then
    updateSocket i (fun k => { k with state := .init, descriptor := s.cfg.descInvalid }) s
  else updateSocket i (fun k => { k with retryTimeout := countdown k.retryTimeout dt }) s

/-- R198: a socket in `Ready`. -/
def smReady (i : Nat) (k : Socket) (s : State) : State :=
  if k.readable then
    issueThen i s.cfg.opcRecv (argsRecv s.cfg.codec k.descriptor s.cfg.recvMaxLen)
      (fun k => { k with readable := false }) s
  else s

/-- R199: a socket in `CloseWait`. -/
def smCloseWait (i : Nat) (k : Socket) (s : State) : State :=
  issueThen i s.cfg.opcClose (argsClose s.cfg.codec k.descriptor) (fun k => { k with state := .closing }) s

/-- The turn of slot `i` in `SM_POLL`, by the state it has when its turn comes (R194, R200). -/
def smSlot (dt : Word32) (i : Nat) (s : State) : State :=
  match socketAt s i with
  | none => s
  | some k =>
    match k.state with
    | .init => smInit i k s
    | .created => smCreated i k s
    | .failed => smFailed i dt k s
    | .ready => smReady i k s
    | .closeWait => smCloseWait i k s
    | .creating | .connecting | .closing | .binding | .bound | .listening | .accepting => s

/-- The bit of a socket in the select mask (R201). -/
def selectBit (k : Socket) : Word32 :=
  if k.state = .ready ∧ selectable k.descriptor then 1#32 <<< k.descriptor.toNat else 0

/-- The mask of the aggregated select (R201). -/
def selectMask (table : List Socket) : Word32 := table.foldl (fun mask k => mask ||| selectBit k) 0

/-- R201: the aggregated select. -/
def smSelect (s : State) : State :=
  if s.sm.selectPending = false ∧ driverFree s then
    if selectMask s.sm.table = 0 then s
    else
      match issueCommand s.cfg.opcSelect (argsSelect s.cfg.codec (selectMask s.sm.table)) s with
      | (t, .ok) => setSelectPending true t
      | (t, .err _) => t
  else s

/-- `SM_POLL(dt)` (R194): the slots in use in ascending order, then the select. -/
def smPoll (dt : Word32) (s : State) : State :=
  smSelect ((List.range s.sm.count).foldl (fun t i => smSlot dt i t) s)

/-! ### Replies forwarded by the dispatcher (R202 to R207) -/

/-- Change the context of the socket `cur` names, when it is in state `expected` (D36); a slot that is free, and an index
of 8 or more, which is no slot's, keeps nothing (log 19). -/
def replyTo (cur : Option Nat) (expected : SockState) (f : Socket → Socket) (s : State) : State :=
  match cur with
  | none => s
  | some i =>
    match socketAt s i with
    | none => s
    | some k => if k.state = expected then updateSocket i f s else s

/-- R202: the create reply. -/
def replyCreate (args : List Byte) (cur : Option Nat) (s : State) : State :=
  match exResult s.cfg.codec args with
  | none => s
  | some v => replyTo cur .creating (fun k => { k with descriptor := v, state := .created }) s

/-- R203: the connect reply. -/
def replyConnect (args : List Byte) (cur : Option Nat) (s : State) : State :=
  match exResult s.cfg.codec args with
  | none => s
  | some v =>
    if v = 0 then replyTo cur .connecting (fun k => { k with state := .ready }) s
    else
      replyTo cur .connecting
        (fun k => { k with state := .failed, retryTimeout := s.cfg.connectRetryTimeout }) s

/-- R204: the close reply; the arguments are not examined. -/
def replyClose (cur : Option Nat) (s : State) : State :=
  replyTo cur .closing
    (fun k => { k with state := .init, descriptor := s.cfg.descInvalid, readable := false }) s

/-- R205 for one socket: a `Ready` socket whose bit is set becomes readable; no bit clears the flag. -/
def markReadable (mask : Word32) (k : Socket) : Socket :=
  if k.state = .ready ∧ selectable k.descriptor ∧ mask.getLsbD k.descriptor.toNat then
    { k with readable := true }
  else k

/-- R205: the select reply. -/
def replySelect (args : List Byte) (s : State) : State :=
  let s := setSelectPending false s
  match exSelectRead s.cfg.codec args with
  | none => s
  | some mask => { s with sm := { s.sm with table := s.sm.table.map (markReadable mask) } }

/-- R206: the receive reply. -/
def replyRecv (s : State) : State := setState .receivingData s

/-- R207: the replies of the optional branch. -/
def replyServer (opcode : Opcode) (cur : Option Nat) (s : State) : State :=
  let s := if opcode = s.cfg.opcBind then replyTo cur .binding (fun k => { k with state := .bound }) s else s
  let s := if opcode = s.cfg.opcListen then replyTo cur .listening (fun k => { k with state := .accepting }) s else s
  if opcode = s.cfg.opcAccept then replyTo cur .accepting (fun k => { k with state := .ready }) s else s

/-- `SOCK_REPLY(opcode, args, cur)` for the eight socket-lifecycle opcodes (R172). -/
def sockReply (opcode : Opcode) (args : List Byte) (cur : Option Nat) (s : State) : State :=
  if opcode = s.cfg.opcSocket then replyCreate args cur s
  else if opcode = s.cfg.opcConnect then replyConnect args cur s
  else if opcode = s.cfg.opcClose then replyClose cur s
  else if opcode = s.cfg.opcSelect then replySelect args s
  else if opcode = s.cfg.opcRecv then replyRecv s
  else replyServer opcode cur s

/-! ### Events and data routed by descriptor (R208, R209) -/

/-- `SOCK_CLOSE_WAIT(d)` (R208). -/
def sockCloseWait (descriptor : Word32) (s : State) : State :=
  match sockLookup descriptor s with
  | none => s
  | some i => setSockState i .closeWait s

/-- `SOCK_DATA(dargs, m)` (R209). -/
def sockData (dargs : List Byte) (m : Nat) (s : State) : State :=
  match dataDesc s.cfg.codec dargs with
  | none => s
  | some d =>
    match sockLookup d s with
    | none => s
    | some i => updateSocket i (fun k => { k with rxCount := k.rxCount + 1, rxBytes := k.rxBytes + m }) s

/-! ### The application's operations on a socket (R210 to R212) -/

/-- `SOCK_CLOSE(i)` (R210). -/
def sockClose (i : Nat) (s : State) : State :=
  match socketAt s i with
  | none => raise .invalid s
  | some k =>
    if k.state ≠ .ready ∧ k.state ≠ .closeWait then raise .invalidState s
    else
      match sockIssue i s.cfg.opcClose (argsClose s.cfg.codec k.descriptor) s with
      | (t, .err e) => raise e t
      | (t, .ok) => finish .ok (setSockState i .closing t)

/-- `SOCK_RECV(i, length)` (R211). -/
def sockRecv (i : Nat) (length : Nat) (s : State) : State :=
  match socketAt s i with
  | none => raise .invalid s
  | some k =>
    if k.state ≠ .ready then raise .invalidState s
    else
      match sockIssue i s.cfg.opcRecv (argsRecv s.cfg.codec k.descriptor length) s with
      | (t, .err e) => raise e t
      | (t, .ok) => finish .ok (setReadable i false t)

/-- `SEND_TO(i, data, address)` (R212). -/
def sendTo (i : Nat) (data address : List Byte) (s : State) : State :=
  match socketAt s i with
  | none => raise .invalid s
  | some k =>
    if k.state ≠ .ready then raise .invalidState s
    else
      finishStatus
        (issueData s.cfg.dopcSendto (argsSendto s.cfg.codec k.descriptor data.length address) data s)

/-! ### Operation rows -/

/-- A per-slot rule run by itself. A free slot's context is any context, and what the rule writes to it is not kept;
every other effect of the rule happens (R35; log 19). An index of 8 or more, which is no slot's (R60(c)), is treated as a
free slot. DESIGN CHOICE (log 19). -/
def onSlot (i : Nat) (f : Socket → State → State) (s : State) : Outcome :=
  match socketAt s i with
  | none => done .nothing (f (Config.freeSlot s.env.slotDraws) (drawSlot s))
  | some k => done .nothing (f k s)

/-- SOCK_ADD (R191). -/
def execSockAdd (family type protocol : Word32) (address : List Byte) (s : State) : Outcome :=
  .next (sockAdd family type protocol address s)

/-- SOCK_LOOKUP (R192). -/
def execSockLookup (descriptor : Word32) (s : State) : Outcome := done (.slot (sockLookup descriptor s)) s

/-- sock_issue (R193): it reads nothing of the slot, so a free one, and an index of 8 or more, is issued for as any other
(log 19). -/
def execSockIssue (i : Nat) (opcode : Opcode) (args : List Byte) (s : State) : Outcome :=
  .next (finishStatus (sockIssue i opcode args s))

/-- SM_POLL (R194). -/
def execSmPoll (dt : Word32) (s : State) : Outcome := done .nothing (smPoll dt s)

/-- SM_POLL.Init (R195). -/
def execSmPollInit (i : Nat) (s : State) : Outcome := onSlot i (fun k s => smInit i k s) s

/-- SM_POLL.Created (R196). -/
def execSmPollCreated (i : Nat) (s : State) : Outcome := onSlot i (fun k s => smCreated i k s) s

/-- SM_POLL.Failed (R197). -/
def execSmPollFailed (i : Nat) (dt : Word32) (s : State) : Outcome := onSlot i (fun k s => smFailed i dt k s) s

/-- SM_POLL.Ready (R198). -/
def execSmPollReady (i : Nat) (s : State) : Outcome := onSlot i (fun k s => smReady i k s) s

/-- SM_POLL.CloseWait (R199). -/
def execSmPollCloseWait (i : Nat) (s : State) : Outcome := onSlot i (fun k s => smCloseWait i k s) s

/-- SM_POLL.other_states (R200): no action. -/
def execSmPollOtherStates (_i : Nat) (s : State) : Outcome := done .nothing s

/-- SM_POLL.select (R201). -/
def execSmPollSelect (s : State) : Outcome := done .nothing (smSelect s)

/-- SOCK_REPLY.SOCKET (R202). -/
def execSockReplySocket (args : List Byte) (cur : Option Nat) (s : State) : Outcome :=
  done .nothing (replyCreate args cur s)

/-- SOCK_REPLY.CONNECT (R203). -/
def execSockReplyConnect (args : List Byte) (cur : Option Nat) (s : State) : Outcome :=
  done .nothing (replyConnect args cur s)

/-- SOCK_REPLY.CLOSE (R204): the reply's result is not examined. -/
def execSockReplyClose (_args : List Byte) (cur : Option Nat) (s : State) : Outcome :=
  done .nothing (replyClose cur s)

/-- SOCK_REPLY.SELECT (R205): the select belongs to no one socket. -/
def execSockReplySelect (args : List Byte) (_cur : Option Nat) (s : State) : Outcome :=
  done .nothing (replySelect args s)

/-- SOCK_REPLY.RECV (R206): unconditional. -/
def execSockReplyRecv (_args : List Byte) (_cur : Option Nat) (s : State) : Outcome := done .nothing (replyRecv s)

/-- SOCK_REPLY.BIND|LISTEN|ACCEPT (R207). -/
def execSockReplyServer (opcode : Opcode) (_args : List Byte) (cur : Option Nat) (s : State) : Outcome :=
  done .nothing (replyServer opcode cur s)

/-- SOCK_CLOSE_WAIT (R208). -/
def execSockCloseWait (descriptor : Word32) (s : State) : Outcome := done .nothing (sockCloseWait descriptor s)

/-- SOCK_DATA (R209). -/
def execSockData (dargs : List Byte) (m : Nat) (s : State) : Outcome := done .nothing (sockData dargs m s)

/-- SOCK_CLOSE (R210). -/
def execSockClose (i : Nat) (s : State) : Outcome := .next (sockClose i s)

/-- SOCK_RECV (R211). -/
def execSockRecv (i : Nat) (length : Nat) (s : State) : Outcome := .next (sockRecv i length s)

/-- SEND_TO (R212). -/
def execSendTo (i : Nat) (data address : List Byte) (s : State) : Outcome := .next (sendTo i data address s)

end Sys2Proof.Machine
end

