-- ==== Sys2Proof/Machine/Dispatcher.lean ====
section
/-! DEFINITION. The event dispatcher (42_dispatcher): a total match on the packet in RX, branch by branch in the
rules' order, and what each received packet row of the opcode table does. -/

namespace Sys2Proof.Machine

/-- Resume (R161): the state after a dispatch that completed no command. -/
def resume (s : State) : State :=
  if s.drv.pendingCommand ≠ none then setState .awaitingReply s else setState .idle s

/-- R168: the buffer-size reply. -/
def onBufferSize (args : List Byte) (s : State) : State :=
  match exBuffers s.cfg.codec args with
  | none => s
  | some v => { s with drv := { s.drv with buffersAvailable := v } }

/-- `DRV.wlan_status <- v` (R25). -/
def recordWlanStatus (v : Word32) (s : State) : State := { s with drv := { s.drv with wlanStatus := v } }

/-- R169: the status-get reply; "disconnected" issues one connect, whose result is absorbed. -/
def onStatusGet (args : List Byte) (s : State) : State :=
  match exStatus s.cfg.codec args with
  | none => s
  | some v =>
    let s := recordWlanStatus v s
    if v = s.cfg.wlanDisconnected then (issueCommand s.cfg.opcWlanConnect s.cfg.wlanConnectArgs s).1 else s

/-- R170: the DHCP event. -/
def onDhcp (args : List Byte) (s : State) : State :=
  match exIpConfig s.cfg.codec args with
  | none => s
  | some v => recordIpConfig v s

/-- R171: the close-wait event. -/
def onCloseWait (args : List Byte) (s : State) : State :=
  match exDesc s.cfg.codec args with
  | none => s
  | some d => sockCloseWait d s

/-- The opcode is one of the eight socket-lifecycle opcodes (R165, R172). -/
def isSocketOpcode (p : Params) (opcode : Opcode) : Bool :=
  decide (opcode = p.opcSocket ∨ opcode = p.opcBind ∨ opcode = p.opcConnect ∨ opcode = p.opcListen ∨
    opcode = p.opcAccept ∨ opcode = p.opcClose ∨ opcode = p.opcSelect ∨ opcode = p.opcRecv)

/-- R164's first line. -/
def countUnsolicited (s : State) : State :=
  { s with drv := { s.drv with statUnsolicited := s.drv.statUnsolicited + 1 } }

/-- Unsolicited event (R164, R174): counted, acted on, resumed. -/
def dispatchUnsolicited (opcode : Opcode) (args : List Byte) (s : State) : State × Verdict :=
  let s := countUnsolicited s
  if opcode = s.cfg.evDhcp then (resume (onDhcp args s), .unsolicited opcode)
  else if opcode = s.cfg.evCloseWait then (resume (onCloseWait args s), .unsolicited opcode)
  else (resume s, .unrecognized opcode)

/-- R165's first four lines: the command and its socket are no longer outstanding, the engine is `Idle`. -/
def clearPending (s : State) : State :=
  setState .idle
    { s with
      drv := { s.drv with pendingCommand := none }
      sm := { s.sm with current := none } }

/-- Matching reply (R165): the command is cleared and the engine made `Idle` before the specific rule runs. -/
def dispatchMatchingReply (opcode : Opcode) (args : List Byte) (s : State) : State × Verdict :=
  let cur := s.sm.current.map Fin.val
  let s := clearPending s
  if opcode = s.cfg.opcBufferSize then (onBufferSize args s, .reply opcode)
  else if opcode = s.cfg.opcStatusGet then (onStatusGet args s, .reply opcode)
  else if isSocketOpcode s.cfg opcode then (sockReply opcode args cur s, .reply opcode)
  else if opcode = s.cfg.opcStart ∨ opcode = s.cfg.opcWlanConnect then (s, .reply opcode)
  else (s, .unrecognized opcode)

/-- R163 after the parse: the event is counted and reported. -/
def reportEvent (opcode : Opcode) (args : List Byte) (argLen : Nat) (s : State) : State :=
  emit (.obsEvent opcode args argLen) { s with drv := { s.drv with statEvents := s.drv.statEvents + 1 } }

/-- R163 once the header has been parsed: count, report, split by opcode. -/
def dispatchEventWith (opcode : Opcode) (args : List Byte) (argLen : Nat) (s : State) : State × Verdict :=
  let s := reportEvent opcode args argLen s
  if opcode.ult unsolThreshold then
    if s.drv.pendingCommand = some opcode then dispatchMatchingReply opcode args s
    else (resume s, .invalid)
  else dispatchUnsolicited opcode args s

/-- R162 once the header has been parsed: per-socket statistics, report, resume. -/
def dispatchDataWith (dopcode : Byte) (dargs data : List Byte) (m : Nat) (s : State) : State × Verdict :=
  (resume (emit (.obsData dopcode dargs data) (sockData dargs m s)), .data)

/-- R166, R167, R175: nothing but resume, verdict `Invalid`. -/
def dispatchInvalid (s : State) : State × Verdict := (resume s, .invalid)

/-- Data tag (R162). -/
def dispatchData (s : State) : State × Verdict :=
  match parseDataHeader s with
  | none => dispatchInvalid s
  | some h => dispatchDataWith h.dopcode h.dargs h.data h.dataLen s

/-- Event tag (R163). -/
def dispatchEvent (s : State) : State × Verdict :=
  match parseEventHeader s with
  | none => dispatchInvalid s
  | some h => dispatchEventWith h.opcode h.args h.argLen s

/-- `DISPATCH()` (R160). -/
def dispatch (s : State) : State × Verdict :=
  if receivedLength s = 0 then dispatchInvalid s
  else if memRead s.rx spiHdrLen = s.cfg.tagData then dispatchData s
  else if memRead s.rx spiHdrLen = s.cfg.tagEvent then dispatchEvent s
  else dispatchInvalid s

/-- The end of a dispatch run by itself: its verdict is what it returns. -/
def finishDispatch (r : State × Verdict) : Outcome := done (.verdict r.2) r.1

/-! ### Received packet rows -/

/-- EVENT_HDR (R105, R163): a received event of any opcode is dispatched. -/
def execEventHdr (opcode : Opcode) (args : List Byte) (s : State) : Outcome :=
  finishDispatch (dispatchEventWith opcode args args.length s)

/-- DATA_HDR_IN (R106, R162): a received data frame is dispatched. -/
def execDataHdrIn (dopcode : Byte) (dargs data : List Byte) (s : State) : Outcome :=
  finishDispatch (dispatchDataWith dopcode dargs data data.length s)

/-- REPLY_START (R163, R165, R173). -/
def execReplyStart (args : List Byte) (s : State) : Outcome :=
  finishDispatch (dispatchEventWith s.cfg.opcStart args args.length s)

/-- REPLY_STATUS_GET (R163, R165, R169). -/
def execReplyStatusGet (args : List Byte) (s : State) : Outcome :=
  finishDispatch (dispatchEventWith s.cfg.opcStatusGet args args.length s)

/-- REPLY_BUFFER_SIZE (R163, R165, R168). -/
def execReplyBufferSize (args : List Byte) (s : State) : Outcome :=
  finishDispatch (dispatchEventWith s.cfg.opcBufferSize args args.length s)

/-- REPLY_WLAN_CONNECT (R163, R165, R173). -/
def execReplyWlanConnect (args : List Byte) (s : State) : Outcome :=
  finishDispatch (dispatchEventWith s.cfg.opcWlanConnect args args.length s)

/-- REPLY_SOCKET (R163, R165, R202). -/
def execReplySocket (args : List Byte) (s : State) : Outcome :=
  finishDispatch (dispatchEventWith s.cfg.opcSocket args args.length s)

/-- REPLY_BIND (R163, R165, R207). -/
def execReplyBind (args : List Byte) (s : State) : Outcome :=
  finishDispatch (dispatchEventWith s.cfg.opcBind args args.length s)

/-- REPLY_RECV (R163, R165, R206). -/
def execReplyRecv (args : List Byte) (s : State) : Outcome :=
  finishDispatch (dispatchEventWith s.cfg.opcRecv args args.length s)

/-- REPLY_ACCEPT (R163, R165, R207). -/
def execReplyAccept (args : List Byte) (s : State) : Outcome :=
  finishDispatch (dispatchEventWith s.cfg.opcAccept args args.length s)

/-- REPLY_LISTEN (R163, R165, R207). -/
def execReplyListen (args : List Byte) (s : State) : Outcome :=
  finishDispatch (dispatchEventWith s.cfg.opcListen args args.length s)

/-- REPLY_CONNECT (R163, R165, R203). -/
def execReplyConnect (args : List Byte) (s : State) : Outcome :=
  finishDispatch (dispatchEventWith s.cfg.opcConnect args args.length s)

/-- REPLY_SELECT (R163, R165, R205). -/
def execReplySelect (args : List Byte) (s : State) : Outcome :=
  finishDispatch (dispatchEventWith s.cfg.opcSelect args args.length s)

/-- REPLY_CLOSE (R163, R165, R204). -/
def execReplyClose (args : List Byte) (s : State) : Outcome :=
  finishDispatch (dispatchEventWith s.cfg.opcClose args args.length s)

/-- EV_DHCP (R163, R164, R170). -/
def execEvDhcp (args : List Byte) (s : State) : Outcome :=
  finishDispatch (dispatchEventWith s.cfg.evDhcp args args.length s)

/-- EV_CLOSE_WAIT (R163, R164, R171). -/
def execEvCloseWait (args : List Byte) (s : State) : Outcome :=
  finishDispatch (dispatchEventWith s.cfg.evCloseWait args args.length s)

/-- EV_UNSOLICITED_OTHER (R163, R164, R174). -/
def execEvUnsolicitedOther (opcode : Opcode) (args : List Byte) (s : State) : Outcome :=
  finishDispatch (dispatchEventWith opcode args args.length s)

/-- REPLY_OTHER (R163, R165, R174). -/
def execReplyOther (opcode : Opcode) (args : List Byte) (s : State) : Outcome :=
  finishDispatch (dispatchEventWith opcode args args.length s)

/-- REPLY_UNEXPECTED (R163, R166). -/
def execReplyUnexpected (opcode : Opcode) (args : List Byte) (s : State) : Outcome :=
  finishDispatch (dispatchEventWith opcode args args.length s)

/-- TAG_UNRECOGNISED (R167). -/
def execTagUnrecognised (_tag : Byte) (s : State) : Outcome := finishDispatch (dispatchInvalid s)

/-- PACKET_MALFORMED (R175). -/
def execPacketMalformed (_payload : List Byte) (s : State) : Outcome := finishDispatch (dispatchInvalid s)

/-- DATA_IN (R162, R209). -/
def execDataIn (dopcode : Byte) (dargs data : List Byte) (s : State) : Outcome :=
  finishDispatch (dispatchDataWith dopcode dargs data data.length s)

/-! ### Operation rows -/

/-- DISPATCH (R160). -/
def execDispatch (s : State) : Outcome := finishDispatch (dispatch s)

/-- DISPATCH.resume (R161). -/
def execDispatchResume (s : State) : Outcome := done .nothing (resume s)

/-- DISPATCH.data (R162). -/
def execDispatchData (s : State) : Outcome := finishDispatch (dispatchData s)

/-- DISPATCH.event (R163). -/
def execDispatchEvent (s : State) : Outcome := finishDispatch (dispatchEvent s)

/-- DISPATCH.unsolicited (R164). -/
def execDispatchUnsolicited (opcode : Opcode) (args : List Byte) (s : State) : Outcome :=
  finishDispatch (dispatchUnsolicited opcode args s)

/-- DISPATCH.matching_reply (R165). -/
def execDispatchMatchingReply (opcode : Opcode) (args : List Byte) (s : State) : Outcome :=
  finishDispatch (dispatchMatchingReply opcode args s)

end Sys2Proof.Machine
end

