-- ==== Sys2Proof/Machine/Poll.lean ====
section
/-! DEFINITION. The polling loop's entry point (41_sequencer R135 to R139), and the outbound packet rows of the opcode
table: the commands and the send-to frame, issued with the argument bytes of their wire form (log 16). -/

namespace Sys2Proof.Machine

/-- Part P1 (R136): dispatch a ready packet; the verdict is discarded (R160). -/
def pollDispatch (s : State) : State := if s.drv.state = .eventReady then (dispatch s).1 else s

/-- The states in which the drain may start a read (R137). -/
def drainsIn (d : DrvState) : Bool := decide (d = .idle ∨ d = .awaitingReply ∨ d = .receivingData)

/-- Part P2 (R137): drain a latched interrupt. -/
def pollDrain (s : State) : State :=
  if s.drv.interruptPending ∧ drainsIn s.drv.state then readHeaderSequence (setInterruptPending false s) else s

/-- The first line of R138. -/
def advanceStatusTimer (dt : Word32) (s : State) : State :=
  { s with drv := { s.drv with statusTimer := saturatingAdd s.drv.statusTimer dt } }

/-- Part P3 (R138): the periodic status-get; a refusal is absorbed and the timer keeps its value. An interval the 32-bit
timer cannot reach (R32) never fires (log 30). -/
def pollStatusTimer (dt : Word32) (s : State) : State :=
  let s := advanceStatusTimer dt s
  if s.cfg.statusPollInterval ≤ s.drv.statusTimer.toNat ∧ driverFree s then
    match issueCommand s.cfg.opcStatusGet [] s with
    | (t, .ok) => { t with drv := { t.drv with statusTimer := 0 } }
    | (t, .err _) => t
  else s

/-- Part P4 (R139): the socket manager, once the network is up. -/
def pollSocketManager (dt : Word32) (s : State) : State := if networkUp s then smPoll dt s else s

/-- `POLL(dt)` (R135): the four parts in order. -/
def poll (dt : Word32) (s : State) : State :=
  pollSocketManager dt (pollStatusTimer dt (pollDrain (pollDispatch s)))

/-! ### Operation rows -/

/-- POLL (R135). -/
def execPoll (dt : Word32) (s : State) : Outcome := done .nothing (poll dt s)

/-- POLL.P1_dispatch (R136). -/
def execPollDispatch (s : State) : Outcome := done .nothing (pollDispatch s)

/-- POLL.P2_drain_latched_interrupt (R137). -/
def execPollDrainLatchedInterrupt (s : State) : Outcome := done .nothing (pollDrain s)

/-- POLL.P3_status_timer (R138). -/
def execPollStatusTimer (dt : Word32) (s : State) : Outcome := done .nothing (pollStatusTimer dt s)

/-- POLL.P4_socket_manager (R139). -/
def execPollSocketManager (dt : Word32) (s : State) : Outcome := done .nothing (pollSocketManager dt s)

/-! ### Outbound packet rows (log 16) -/

/-- CMD_START (R120): the start sequence, with the handshake's argument bytes. -/
def execCmdStart (args : List Byte) (s : State) : Outcome := .next (startWith args s)

/-- CMD_STATUS_GET (R121, R138). -/
def execCmdStatusGet (args : List Byte) (s : State) : Outcome :=
  .next (finishStatus (issueCommand s.cfg.opcStatusGet args s))

/-- CMD_BUFFER_SIZE (R121). -/
def execCmdBufferSize (args : List Byte) (s : State) : Outcome :=
  .next (finishStatus (issueCommand s.cfg.opcBufferSize args s))

/-- CMD_WLAN_CONNECT (R142). -/
def execCmdWlanConnect (args : List Byte) (s : State) : Outcome := .next (finishStatus (wlanConnectWith args s))

/-- CMD_SOCKET (R121, R195). -/
def execCmdSocket (args : List Byte) (s : State) : Outcome :=
  .next (finishStatus (issueCommand s.cfg.opcSocket args s))

/-- CMD_BIND (R121). -/
def execCmdBind (args : List Byte) (s : State) : Outcome :=
  .next (finishStatus (issueCommand s.cfg.opcBind args s))

/-- CMD_RECV (R121, R198). -/
def execCmdRecv (args : List Byte) (s : State) : Outcome :=
  .next (finishStatus (issueCommand s.cfg.opcRecv args s))

/-- CMD_ACCEPT (R121). -/
def execCmdAccept (args : List Byte) (s : State) : Outcome :=
  .next (finishStatus (issueCommand s.cfg.opcAccept args s))

/-- CMD_LISTEN (R121). -/
def execCmdListen (args : List Byte) (s : State) : Outcome :=
  .next (finishStatus (issueCommand s.cfg.opcListen args s))

/-- CMD_CONNECT (R121, R196). -/
def execCmdConnect (args : List Byte) (s : State) : Outcome :=
  .next (finishStatus (issueCommand s.cfg.opcConnect args s))

/-- CMD_SELECT (R121, R201). -/
def execCmdSelect (args : List Byte) (s : State) : Outcome :=
  .next (finishStatus (issueCommand s.cfg.opcSelect args s))

/-- CMD_CLOSE (R121, R199). -/
def execCmdClose (args : List Byte) (s : State) : Outcome :=
  .next (finishStatus (issueCommand s.cfg.opcClose args s))

/-- DATA_SENDTO (R122, R212). -/
def execDataSendto (args data : List Byte) (s : State) : Outcome :=
  .next (finishStatus (issueData s.cfg.dopcSendto args data s))

end Sys2Proof.Machine
end

