-- ==== Sys2Proof/Machine/Dispatch.lean ====
section
/-! DEFINITION. Every operation's meaning, one arm a row of spec/opcode_table.json. -/

namespace Sys2Proof.Machine

/-- The meaning of an operation. -/
def exec (i : Instr) (s : State) : Host.Outcome State Fault Refusal :=
  match i with
  | .xportHdrWrite length => Sys2Proof.Machine.execXportHdrWrite length s
  | .xportHdrRead => Sys2Proof.Machine.execXportHdrRead s
  | .xportHdrReceived type length busy0 busy1 => Sys2Proof.Machine.execXportHdrReceived type length busy0 busy1 s
  | .cmdHdr opcode args => Sys2Proof.Machine.execCmdHdr opcode args s
  | .eventHdr opcode args => Sys2Proof.Machine.execEventHdr opcode args s
  | .dataHdrOut dopcode args data => Sys2Proof.Machine.execDataHdrOut dopcode args data s
  | .dataHdrIn dopcode args data => Sys2Proof.Machine.execDataHdrIn dopcode args data s
  | .pad => Sys2Proof.Machine.execPad s
  | .cmdStart args => Sys2Proof.Machine.execCmdStart args s
  | .replyStart args => Sys2Proof.Machine.execReplyStart args s
  | .cmdStatusGet args => Sys2Proof.Machine.execCmdStatusGet args s
  | .replyStatusGet args => Sys2Proof.Machine.execReplyStatusGet args s
  | .cmdBufferSize args => Sys2Proof.Machine.execCmdBufferSize args s
  | .replyBufferSize args => Sys2Proof.Machine.execReplyBufferSize args s
  | .cmdWlanConnect args => Sys2Proof.Machine.execCmdWlanConnect args s
  | .replyWlanConnect args => Sys2Proof.Machine.execReplyWlanConnect args s
  | .cmdSocket args => Sys2Proof.Machine.execCmdSocket args s
  | .replySocket args => Sys2Proof.Machine.execReplySocket args s
  | .cmdBind args => Sys2Proof.Machine.execCmdBind args s
  | .replyBind args => Sys2Proof.Machine.execReplyBind args s
  | .cmdRecv args => Sys2Proof.Machine.execCmdRecv args s
  | .replyRecv args => Sys2Proof.Machine.execReplyRecv args s
  | .cmdAccept args => Sys2Proof.Machine.execCmdAccept args s
  | .replyAccept args => Sys2Proof.Machine.execReplyAccept args s
  | .cmdListen args => Sys2Proof.Machine.execCmdListen args s
  | .replyListen args => Sys2Proof.Machine.execReplyListen args s
  | .cmdConnect args => Sys2Proof.Machine.execCmdConnect args s
  | .replyConnect args => Sys2Proof.Machine.execReplyConnect args s
  | .cmdSelect args => Sys2Proof.Machine.execCmdSelect args s
  | .replySelect args => Sys2Proof.Machine.execReplySelect args s
  | .cmdClose args => Sys2Proof.Machine.execCmdClose args s
  | .replyClose args => Sys2Proof.Machine.execReplyClose args s
  | .evDhcp args => Sys2Proof.Machine.execEvDhcp args s
  | .evCloseWait args => Sys2Proof.Machine.execEvCloseWait args s
  | .evUnsolicitedOther opcode args => Sys2Proof.Machine.execEvUnsolicitedOther opcode args s
  | .replyOther opcode args => Sys2Proof.Machine.execReplyOther opcode args s
  | .replyUnexpected opcode args => Sys2Proof.Machine.execReplyUnexpected opcode args s
  | .tagUnrecognised tag => Sys2Proof.Machine.execTagUnrecognised tag s
  | .packetMalformed payload => Sys2Proof.Machine.execPacketMalformed payload s
  | .dataSendto args data => Sys2Proof.Machine.execDataSendto args data s
  | .dataIn dopcode args data => Sys2Proof.Machine.execDataIn dopcode args data s
  | .frameTransport type payloadLen => Sys2Proof.Machine.execFrameTransport type payloadLen s
  | .frameReadHeader => Sys2Proof.Machine.execFrameReadHeader s
  | .frameCommand opcode args => Sys2Proof.Machine.execFrameCommand opcode args s
  | .frameData dopcode args data => Sys2Proof.Machine.execFrameData dopcode args data s
  | .parseTransport => Sys2Proof.Machine.execParseTransport s
  | .parseEventHeader => Sys2Proof.Machine.execParseEventHeader s
  | .parseDataHeader => Sys2Proof.Machine.execParseDataHeader s
  | .start => Sys2Proof.Machine.execStart s
  | .issueCommand opcode args => Sys2Proof.Machine.execIssueCommand opcode args s
  | .issueData dopcode args data => Sys2Proof.Machine.execIssueData dopcode args data s
  | .onInterrupt => Sys2Proof.Machine.execOnInterrupt s
  | .onInterruptCommandRequest => Sys2Proof.Machine.execOnInterruptCommandRequest s
  | .onInterruptDataRequest => Sys2Proof.Machine.execOnInterruptDataRequest s
  | .onInterruptReadHeader => Sys2Proof.Machine.execOnInterruptReadHeader s
  | .onInterruptUnhandled => Sys2Proof.Machine.execOnInterruptUnhandled s
  | .onTransportComplete rx => Sys2Proof.Machine.execOnTransportComplete rx s
  | .onTransportCompleteSendingCommand n => Sys2Proof.Machine.execOnTransportCompleteSendingCommand n s
  | .onTransportCompleteSendingData n => Sys2Proof.Machine.execOnTransportCompleteSendingData n s
  | .onTransportCompleteReadingHeader => Sys2Proof.Machine.execOnTransportCompleteReadingHeader s
  | .onTransportCompleteReadingPayload n => Sys2Proof.Machine.execOnTransportCompleteReadingPayload n s
  | .finishReceive => Sys2Proof.Machine.execFinishReceive s
  | .onTransportCompleteNoTransaction => Sys2Proof.Machine.execOnTransportCompleteNoTransaction s
  | .poll dt => Sys2Proof.Machine.execPoll dt s
  | .pollDispatch => Sys2Proof.Machine.execPollDispatch s
  | .pollDrainLatchedInterrupt => Sys2Proof.Machine.execPollDrainLatchedInterrupt s
  | .pollStatusTimer dt => Sys2Proof.Machine.execPollStatusTimer dt s
  | .pollSocketManager dt => Sys2Proof.Machine.execPollSocketManager dt s
  | .setState target => Sys2Proof.Machine.execSetState target s
  | .wlanConnect => Sys2Proof.Machine.execWlanConnect s
  | .getWlanStatus => Sys2Proof.Machine.execGetWlanStatus s
  | .getBuffers => Sys2Proof.Machine.execGetBuffers s
  | .getIpConfig => Sys2Proof.Machine.execGetIpConfig s
  | .dispatch => Sys2Proof.Machine.execDispatch s
  | .dispatchResume => Sys2Proof.Machine.execDispatchResume s
  | .dispatchData => Sys2Proof.Machine.execDispatchData s
  | .dispatchEvent => Sys2Proof.Machine.execDispatchEvent s
  | .dispatchUnsolicited opcode args => Sys2Proof.Machine.execDispatchUnsolicited opcode args s
  | .dispatchMatchingReply opcode args => Sys2Proof.Machine.execDispatchMatchingReply opcode args s
  | .sockAdd family type protocol address => Sys2Proof.Machine.execSockAdd family type protocol address s
  | .sockLookup descriptor => Sys2Proof.Machine.execSockLookup descriptor s
  | .sockIssue slot opcode args => Sys2Proof.Machine.execSockIssue slot opcode args s
  | .smPoll dt => Sys2Proof.Machine.execSmPoll dt s
  | .smPollInit slot => Sys2Proof.Machine.execSmPollInit slot s
  | .smPollCreated slot => Sys2Proof.Machine.execSmPollCreated slot s
  | .smPollFailed slot dt => Sys2Proof.Machine.execSmPollFailed slot dt s
  | .smPollReady slot => Sys2Proof.Machine.execSmPollReady slot s
  | .smPollCloseWait slot => Sys2Proof.Machine.execSmPollCloseWait slot s
  | .smPollOtherStates slot => Sys2Proof.Machine.execSmPollOtherStates slot s
  | .smPollSelect => Sys2Proof.Machine.execSmPollSelect s
  | .sockReplySocket args cur => Sys2Proof.Machine.execSockReplySocket args cur s
  | .sockReplyConnect args cur => Sys2Proof.Machine.execSockReplyConnect args cur s
  | .sockReplyClose args cur => Sys2Proof.Machine.execSockReplyClose args cur s
  | .sockReplySelect args cur => Sys2Proof.Machine.execSockReplySelect args cur s
  | .sockReplyRecv args cur => Sys2Proof.Machine.execSockReplyRecv args cur s
  | .sockReplyServer opcode args cur => Sys2Proof.Machine.execSockReplyServer opcode args cur s
  | .sockCloseWait descriptor => Sys2Proof.Machine.execSockCloseWait descriptor s
  | .sockData dargs m => Sys2Proof.Machine.execSockData dargs m s
  | .sockClose slot => Sys2Proof.Machine.execSockClose slot s
  | .sockRecv slot length => Sys2Proof.Machine.execSockRecv slot length s
  | .sendTo slot data address => Sys2Proof.Machine.execSendTo slot data address s

end Sys2Proof.Machine
end

