-- ==== Sys2Proof/Machine/Fetch.lean ====
section
/-! DEFINITION. What happens next: a synchronous transport's completion (D55), the edge the host interrupt controller
keeps (R236), or the schedule's next entry (R12, R91), decoded. The block has no program of its own (R8): the
schedule is what its agents do to it (log 7). -/

namespace Sys2Proof.Machine

/-- What the next step is about. -/
inductive Event
  /-- Nothing happens: between triggers the block does nothing (R247). -/
  | rest
  /-- Operation `i` runs, in state `s`. -/
  | run (i : Instr) (s : State)
  /-- An edge arrives while the line is disabled (R236). -/
  | masked (s : State)
  /-- The schedule's next entry is no operation. -/
  | reject (e : DecodeError)
  deriving DecidableEq, Repr

/-- The levels `irq=` supplies to the step (R91): the first now, the others after each read; none given, none
changed (log 8). -/
def Env.supply (irq : List Level) (e : Env) : Env :=
  match irq with
  | [] => e
  | l :: rest => { e with level := l, levels := rest }

/-- The state in which a trace line's operation runs. -/
def beginLine (irq : List Level) (rest : List Stimulus) (s : State) : State :=
  { s with env := { s.env.supply irq with schedule := rest } }

/-- The schedule without its first entry. -/
def dropStimulus (rest : List Stimulus) (s : State) : State := { s with env := { s.env with schedule := rest } }

/-- The host's controller gives up the edge it kept (R236). -/
def releaseEdge (s : State) : State := { s with env := { s.env with heldEdge := false } }

/-- An edge arrives while the line is disabled: kept, at most one, or dropped, by `IRQ_HELD_WHILE_MASKED` (R236). -/
def maskEdge (s : State) : State :=
  { s with env := { s.env with heldEdge := s.env.heldEdge || s.cfg.irqHeldWhileMasked } }

/-- The schedule's next entry reports the completion itself. -/
def completionNext (s : State) : Bool :=
  match s.env.schedule with
  | .line op _ :: _ =>
    match decodeLine op with
    | .instr (.onTransportComplete _) => true
    | _ => false
  | _ => false

/-- A synchronous transport's completion comes before anything else (R140, D55; log 13). -/
def transferDue (s : State) : Bool := s.cfg.xferSync && s.drv.xfer.isSome && !(completionNext s)

/-- An operation, once decoded, in the state it runs in. -/
def runDecoded (d : Decoded) (s : State) : Event :=
  match d with
  | .instr i => .run i s
  | .rejected e => .reject e

/-- The schedule's next entry. -/
def scheduled (s : State) : Event :=
  match s.env.schedule with
  | [] => .rest
  | .edge :: rest =>
    if s.drv.intEn then .run .onInterrupt (dropStimulus rest s) else .masked (maskEdge (dropStimulus rest s))
  | .line op irq :: rest => runDecoded (decodeLine op) (beginLine irq rest s)
  | .wire site bytes :: rest =>
    runDecoded (decodeWire s.cfg s.drv.pendingCommand site bytes) (dropStimulus rest s)

/-- What happens next. -/
def nextEvent (s : State) : Event :=
  if transferDue s then .run (.onTransportComplete []) s
  else if s.env.heldEdge && s.drv.intEn then .run .onInterrupt (releaseEdge s)
  else scheduled s

/-- A held operation stays at the head of the schedule, its supply of levels taken (log 9). -/
def heldSchedule : List Stimulus → List Stimulus
  | .line op _ :: rest => .line op [] :: rest
  | l => l

/-- After an operation: when it was held (START, R120), it is still the next thing to happen. -/
def settle (before : List Stimulus) (o : Outcome) : Outcome :=
  match o with
  | .next t =>
    if t.result = .held then .next { t with env := { t.env with schedule := heldSchedule before } } else .next t
  | other => other

/-- The state whose very next step decodes and runs a table word's bytes at their place: they become the next thing
the environment does, no kept edge and no synchronous completion comes first, and a named reply's command is pending
(R165). -/
def withTableWord (s : State) (nbits w : Nat) : State :=
  { s with
    drv := { s.drv with
      pendingCommand :=
        match tablePending nbits w with
        | some opcode => some opcode
        | none => s.drv.pendingCommand
      xfer := if s.cfg.xferSync then none else s.drv.xfer }
    env := { s.env with
      schedule := .wire (tableSite nbits w) (tableBytes nbits w) :: s.env.schedule
      heldEdge := false } }

end Sys2Proof.Machine
end

