-- ==== Sys2Proof/Machine/Step.lean ====
section
/-! DEFINITION. One step of the machine: one whole operation, atomic (R12, R69). -/

namespace Sys2Proof.Machine

/-- One step (R12): what happens next, as `nextEvent` says. -/
def step (s : State) : Host.Outcome State Fault Refusal :=
  match nextEvent s with
  | .rest => .next s
  | .run i t => settle s.env.schedule (exec i t)
  | .masked t => .next t
  | .reject e => .refused (.undecodable e)

/-- `s` with a table word's instruction as the next thing that happens (log 7). -/
def State.withFetchWord (s : State) (nbits w : Nat) : State := withTableWord s nbits w

end Sys2Proof.Machine
end

