-- ==== Sys2Proof/Safety.lean ====
section
/-! DEFINITION. What counts as a safe run, in the terms claims use: the operations agents may cause (R12), the
invariants the spec states of every reachable state (R33, R34, R36, R40, R45, R64, R71, R108, R200), and the table
of transitions (R144). -/

namespace Sys2Proof.Machine

/-! ### What the agents do (R12) -/

/-- The operations an agent causes (R12, R238): the application's, the chip's interrupt, the transport's completion.
The others are parts of these, run by them (R90). -/
def byAgent : Instr → Bool
  | .start | .issueCommand .. | .issueData .. | .poll _ | .wlanConnect => true
  | .getWlanStatus | .getBuffers | .getIpConfig => true
  | .sockAdd .. | .sockClose _ | .sockRecv .. | .sendTo .. => true
  | .onInterrupt | .onTransportComplete _ => true
  | _ => false

/-- A stimulus an agent causes: an edge, or a line whose operation is an agent's. -/
def stimulusByAgent : Stimulus → Bool
  | .edge => true
  | .wire .. => false
  | .line op _ =>
    match decodeLine op with
    | .instr i => byAgent i
    | .rejected _ => true

/-- Everything scheduled is caused by an agent. -/
def agentsOnly (s : State) : Bool := s.env.schedule.all stimulusByAgent

/-! ### Invariants -/

/-- The states in which chip-select is asserted (R33). -/
def chipSelected : DrvState → Bool
  | .commandRequest | .sendingCommand | .dataRequest | .sendingData | .readingHeader | .readingPayload => true
  | _ => false

/-- The states in which the interrupt line is disabled (R33). -/
def lineMasked : DrvState → Bool
  | .init | .sendingCommand | .sendingData | .readingHeader | .readingPayload => true
  | _ => false

/-- R33: the shadow outputs follow the sequencer's state. -/
def linesFollowState (s : State) : Bool :=
  s.drv.cs == chipSelected s.drv.state && s.drv.intEn == !(lineMasked s.drv.state)

/-- R34, with what each state's transaction is (R65, R124 to R131): the transaction in flight. -/
def transferOf (s : State) : Option Xfer :=
  match s.drv.state with
  | .sendingCommand | .sendingData => some ⟨.tx, s.drv.transmitLength.toNat⟩
  | .readingHeader => some ⟨.exchange, spiHdrLen⟩
  | .readingPayload => some ⟨.rx, receivedLength s⟩
  | _ => none

/-- The states in which a frame the framer has built stands in TX, waiting or going out. -/
def framePresent : DrvState → Bool
  | .commandRequest | .sendingCommand | .dataRequest | .sendingData => true
  | _ => false

/-- R64, R108: such a frame has even length, at least 10 and at most `BUF_SIZE`. -/
def frameSound (s : State) : Bool :=
  !(framePresent s.drv.state) ||
    (decide (s.drv.transmitLength.toNat % 2 = 0) && decide (10 ≤ s.drv.transmitLength.toNat) &&
      decide (s.drv.transmitLength.toNat ≤ s.cfg.bufSize))

/-- R71: a packet whose payload is being read or waits for dispatch fits RX. -/
def packetFits (s : State) : Bool :=
  !(decide (s.drv.state = .readingPayload ∨ s.drv.state = .eventReady)) ||
    decide (5 + receivedLength s ≤ s.cfg.bufSize)

/-- In which states a command awaits its reply, for the states where the rules settle it (R144): `some true` where one
does, `some false` where none does. -/
def commandPending : DrvState → Option Bool
  | .startSequence | .commandRequest | .sendingCommand | .awaitingReply => some true
  | .init | .idle | .dataRequest | .sendingData | .receivingData => some false
  | .readingHeader | .readingPayload | .eventReady => none

/-- The pending command agrees with the state. -/
def pendingAgrees (s : State) : Bool :=
  match commandPending s.drv.state with
  | none => true
  | some b => s.drv.pendingCommand.isSome == b

/-- The sequencer's invariant (R33, R34, R64, R71): with parameters that meet R7 and agents that keep to R12. -/
def EngineInv (s : State) : Prop :=
  s.cfg.wf = true ∧ agentsOnly s = true ∧ linesFollowState s = true ∧ s.drv.xfer = transferOf s ∧
    frameSound s = true ∧ packetFits s = true ∧ pendingAgrees s = true

/-- R40, R200: a socket's descriptor is unset in `Init` and `Creating`; the four states of the optional branch are
never entered. -/
def socketSound (p : Params) (k : Socket) : Bool :=
  (k.hasDescriptor || k.descriptor == p.descInvalid) &&
    decide (k.state ≠ .binding ∧ k.state ≠ .bound ∧ k.state ≠ .listening ∧ k.state ≠ .accepting)

/-- R45(b) as R36 reads it: a current socket is a slot in use and a command is pending. -/
def currentSound (s : State) : Bool :=
  match s.sm.current with
  | none => true
  | some i => decide (i.val < s.sm.count) && s.drv.pendingCommand.isSome

/-- R45(e): a select outstanding is the pending command. -/
def selectSound (s : State) : Bool :=
  !s.sm.selectPending || s.drv.pendingCommand == some s.cfg.opcSelect

/-- The socket manager's invariant (R40, R45(b), (c), (d), (e), R200). -/
def TableInv (s : State) : Prop :=
  s.sm.count ≤ sockSlots ∧ s.sm.table.all (socketSound s.cfg) = true ∧ currentSound s = true ∧ selectSound s = true

/-- Both buffers are in canonical form. -/
def BuffersCanonical (s : State) : Prop := Memory.wf s.tx = true ∧ Memory.wf s.rx = true

/-- Both buffers list only addresses below `BUF_SIZE` (R60, R71). -/
def BuffersInRange (s : State) : Prop :=
  Memory.within s.cfg.bufSize s.tx = true ∧ Memory.within s.cfg.bufSize s.rx = true

/-! ### Transitions (R144) -/

/-- The pairs of R144, one `set_state` each. The two rows that pass through `Idle` are their two calls, so the receive
reply's second call is `Idle` to `ReceivingData` (R165, R206; log 29). -/
def transitionAllowed : DrvState → DrvState → Bool
  | .init, .startSequence => true
  | .startSequence, .readingHeader => true
  | .idle, .commandRequest => true
  | .idle, .dataRequest => true
  | .idle, .readingHeader => true
  | .idle, .receivingData => true
  | .commandRequest, .sendingCommand => true
  | .sendingCommand, .awaitingReply => true
  | .awaitingReply, .readingHeader => true
  | .dataRequest, .sendingData => true
  | .sendingData, .idle => true
  | .receivingData, .readingHeader => true
  | .readingHeader, .readingPayload => true
  | .readingHeader, .eventReady => true
  | .readingPayload, .eventReady => true
  | .eventReady, .idle => true
  | .eventReady, .awaitingReply => true
  | _, _ => false

/-- The sequencer state that a history of effects leads to from `from_`: each transition starts where the one before
it ended, and `none` when one does not (R141). -/
def traceState : DrvState → List Effect → Option DrvState
  | d, [] => some d
  | d, .obsTransition old new :: rest => if old = d then traceState new rest else none
  | d, _ :: rest => traceState d rest

end Sys2Proof.Machine
end

