-- ==== Sys2Proof/Certificates/Slice0/Obligations.lean ====
section
/-! DEFINITION. The statements for the provers, and the terms they are written in: the bytes of a frame (R66), what a
write of bytes leaves (R60), and the states the rules' pseudocode gives, written out register by register. -/

namespace Sys2Proof.Spec

open Sys2Proof.Machine

/-! ### Bytes and buffers -/

/-- `n[15:8]` as a byte (R9). -/
def hi (n : Nat) : Byte := BitVec.ofNat 8 (n / 256)

/-- `n[7:0]` as a byte (R9). -/
def lo (n : Nat) : Byte := BitVec.ofNat 8 n

/-- One padding byte when `total` is odd (R84). -/
def pad (p : Params) (total : Nat) : List Byte := if total % 2 = 1 then [p.padByte] else []

/-- `TX[0 .. n-1]` of a command frame, column 1 of R66. -/
def commandFrame (p : Params) (opcode : Opcode) (args : List Byte) : List Byte :=
  let k := args.length
  let padded := 4 + k + (pad p (9 + k)).length
  [p.spiOpWrite, hi padded, lo padded, 0x00#8, 0x00#8] ++
    [p.tagCmd, lo opcode.toNat, hi opcode.toNat, lo k] ++ args ++ pad p (9 + k)

/-- `TX[0 .. n-1]` of a data frame, column 2 of R66. -/
def dataFrame (p : Params) (dopcode : Byte) (args data : List Byte) : List Byte :=
  let k := args.length
  let m := data.length
  let padded := 5 + k + m + (pad p (10 + k + m)).length
  let plen := if p.dataLenCountsArgs then k + m else m
  [p.spiOpWrite, hi padded, lo padded, 0x00#8, 0x00#8] ++
    [p.tagData, dopcode, lo k, lo plen, hi plen] ++ args ++ data ++ pad p (10 + k + m)

/-- The five bytes of a read header (R101). -/
def readHeaderFrame (p : Params) : List Byte := [p.spiOpRead, 0x00#8, 0x00#8, 0x00#8, 0x00#8]

/-- Read byte by byte, `after` is `before` with `bytes` written from address `a` on, as far as the buffer of `size` bytes
goes: every other byte reads as before. Bytes past the end, which no rule writes (R71), are not kept: the model's choice
(log 19). -/
def Written (size : Nat) (before after : Memory) (a : Nat) (bytes : List Byte) : Prop :=
  ∀ x, memRead after x =
    if a ≤ x ∧ x < a + bytes.length ∧ x < size then bytes.getD (x - a) 0x00#8 else memRead before x

/-- A length in the 16 bits of `transmit_length` (R24): itself, or, when it does not fit them, any value (log 19). -/
def held (n : Nat) : BitVec 16 := if n < 65536 then BitVec.ofNat 16 n else Config.lengthBeyond n

/-- `t` is `s` with `frame` in `TX[0 .. n-1]` and `transmit_length` its length `n`; nothing else differs (R109). -/
def Framed (frame : List Byte) (s t : State) : Prop :=
  Written s.cfg.bufSize s.tx t.tx 0 frame ∧
    { t with tx := s.tx } = { s with drv := { s.drv with transmitLength := held frame.length } }

/-- `BE16(RX[o], RX[o+1])` at `o = RX_LEN_OFFSET` (R104). -/
def rxLength (s : State) : Nat :=
  match s.cfg.rxLenOffset with
  | .one => 256 * (memRead s.rx 1).toNat + (memRead s.rx 2).toNat
  | .three => 256 * (memRead s.rx 3).toNat + (memRead s.rx 4).toNat

/-! ### States the rules give -/

/-- What an operation that may be refused returns (R230). -/
def returned : Status → OpResult
  | .ok => .ok
  | .err e => .raised e

/-- Deferral in the two issue operations (R121, R122): `INT_EN(0), IRQ_LEVEL(), INT_EN(1)`. -/
def deferred (s : State) : State :=
  { s with
    drv := { s.drv with intEn := true }
    effects := s.effects ++ [.intEn false, .irqLevel .asserted, .intEn true]
    env := s.env.afterRead }

/-- An accepted `ISSUE_COMMAND` (R121): the frame in TX, and every other register. -/
def Issued (opcode : Opcode) (args : List Byte) (s t : State) : Prop :=
  Written s.cfg.bufSize s.tx t.tx 0 (commandFrame s.cfg opcode args) ∧
    { t with tx := s.tx } = { s with
      drv := { s.drv with
        transmitLength := BitVec.ofNat 16 (commandFrame s.cfg opcode args).length
        pendingCommand := some opcode
        statCommands := s.drv.statCommands + 1
        state := .commandRequest
        cs := true
        intEn := true }
      effects := s.effects ++ [.intEn false, .irqLevel .idle, .obsCommand opcode,
        .obsTransition .idle .commandRequest, .cs true, .intEn true]
      env := s.env.afterRead }

/-- `ISSUE_COMMAND(opcode, args)` in `s` returns `r` and leaves `t` (R121), in the rule's order of checks. -/
def Issue (opcode : Opcode) (args : List Byte) (s t : State) (r : Status) : Prop :=
  if s.drv.pendingCommand ≠ none ∨ s.drv.state ≠ .idle then t = s ∧ r = .err .busy
  else if args.length > 255 then t = s ∧ r = .err .invalid
  else if s.env.level = .asserted then t = deferred s ∧ r = .err .busy
  else Issued opcode args s t ∧ r = .ok

/-- `FRAME_DATA` would raise `Invalid` (R103). -/
def DataInvalid (p : Params) (args data : List Byte) : Prop :=
  args.length > 255 ∨ (if p.dataLenCountsArgs then args.length + data.length else data.length) > 65535 ∨
    5 + (5 + args.length + data.length) + 1 > p.bufSize

/-- An accepted `ISSUE_DATA` (R122). -/
def IssuedData (dopcode : Byte) (args data : List Byte) (s t : State) : Prop :=
  Written s.cfg.bufSize s.tx t.tx 0 (dataFrame s.cfg dopcode args data) ∧
    { t with tx := s.tx } = { s with
      drv := { s.drv with
        transmitLength := held (dataFrame s.cfg dopcode args data).length
        state := .dataRequest
        cs := true
        intEn := true }
      effects := s.effects ++ [.intEn false, .irqLevel .idle, .obsTransition .idle .dataRequest, .cs true,
        .intEn true]
      env := s.env.afterRead }

/-- `ISSUE_DATA(dopcode, args, data)` in `s` returns `r` and leaves `t` (R122). -/
def IssueData (dopcode : Byte) (args data : List Byte) (s t : State) (r : Status) : Prop :=
  (s.drv.pendingCommand ≠ none ∨ s.drv.state ≠ .idle → t = s ∧ r = .err .busy) ∧
  (s.drv.pendingCommand = none → s.drv.state = .idle → DataInvalid s.cfg args data → t = s ∧ r = .err .invalid) ∧
  (s.drv.pendingCommand = none → s.drv.state = .idle → ¬DataInvalid s.cfg args data →
    (s.env.level = .asserted → t = deferred s ∧ r = .err .busy) ∧
    (s.env.level = .idle → IssuedData dopcode args data s t ∧ r = .ok))

/-- The read-header sequence (R126): a read header in `TX[0..4]`, and every other register. -/
def ReadStarted (s t : State) : Prop :=
  Written s.cfg.bufSize s.tx t.tx 0 (readHeaderFrame s.cfg) ∧
    { t with tx := s.tx } = { s with
      drv := { s.drv with
        intEn := false
        cs := true
        transmitLength := 5#16
        state := .readingHeader
        xfer := some ⟨.exchange, 5⟩ }
      effects := s.effects ++
        [.intEn false, .cs true, .obsTransition s.drv.state .readingHeader, .xfer .exchange 5] }

/-- `CS(0); set_state(target); INT_EN(1)`: the end of every transaction but a header with a payload to follow (R129,
R130, R133). -/
def released (target : DrvState) (s : State) : State :=
  { s with
    drv := { s.drv with cs := false, state := target, intEn := true }
    effects := s.effects ++ [.cs false, .obsTransition s.drv.state target, .intEn true] }

/-- Resume (R161). -/
def resumed (s : State) : State :=
  let target : DrvState := if s.drv.pendingCommand ≠ none then .awaitingReply else .idle
  { s with drv := { s.drv with state := target }, effects := s.effects ++ [.obsTransition s.drv.state target] }

/-- R163's first lines: the event counted and reported. -/
def eventSeen (opcode : Opcode) (args : List Byte) (s : State) : State :=
  { s with
    drv := { s.drv with statEvents := s.drv.statEvents + 1 }
    effects := s.effects ++ [.obsEvent opcode args args.length] }

/-- R165's first lines: no command and no socket outstanding, the engine `Idle`. -/
def replyCleared (s : State) : State :=
  { s with
    drv := { s.drv with pendingCommand := none, state := .idle }
    sm := { s.sm with current := none }
    effects := s.effects ++ [.obsTransition s.drv.state .idle] }

/-- The context of slot `i` replaced. -/
def withSlot (i : Nat) (k : Socket) (s : State) : State :=
  { s with sm := { s.sm with table := s.sm.table.set i k } }

/-- The bytes a transaction of `n` bytes stores: those supplied, then free ones (R249, U12; log 14). -/
def supplied (rx : List Byte) (n draws : Nat) : List Byte :=
  (List.range n).map fun j => rx.getD j (Config.chipByte (draws + (j - rx.length)))

/-! ### Rows of the opcode table by shape -/

/-- The rows that are `ISSUE_COMMAND` of a named opcode, with that opcode and their arguments (R88, R121). -/
def commandRow (p : Params) : Instr → Option (Opcode × List Byte)
  | .cmdStatusGet args => some (p.opcStatusGet, args)
  | .cmdBufferSize args => some (p.opcBufferSize, args)
  | .cmdSocket args => some (p.opcSocket, args)
  | .cmdBind args => some (p.opcBind, args)
  | .cmdRecv args => some (p.opcRecv, args)
  | .cmdAccept args => some (p.opcAccept, args)
  | .cmdListen args => some (p.opcListen, args)
  | .cmdConnect args => some (p.opcConnect, args)
  | .cmdSelect args => some (p.opcSelect, args)
  | .cmdClose args => some (p.opcClose, args)
  | _ => none

/-- The rows that are one received event, with its opcode and arguments (R88, R89). -/
def eventRow (p : Params) : Instr → Option (Opcode × List Byte)
  | .eventHdr opcode args => some (opcode, args)
  | .replyStart args => some (p.opcStart, args)
  | .replyStatusGet args => some (p.opcStatusGet, args)
  | .replyBufferSize args => some (p.opcBufferSize, args)
  | .replyWlanConnect args => some (p.opcWlanConnect, args)
  | .replySocket args => some (p.opcSocket, args)
  | .replyBind args => some (p.opcBind, args)
  | .replyRecv args => some (p.opcRecv, args)
  | .replyAccept args => some (p.opcAccept, args)
  | .replyListen args => some (p.opcListen, args)
  | .replyConnect args => some (p.opcConnect, args)
  | .replySelect args => some (p.opcSelect, args)
  | .replyClose args => some (p.opcClose, args)
  | .evDhcp args => some (p.evDhcp, args)
  | .evCloseWait args => some (p.evCloseWait, args)
  | .evUnsolicitedOther opcode args => some (opcode, args)
  | .replyOther opcode args => some (opcode, args)
  | .replyUnexpected opcode args => some (opcode, args)
  | _ => none

/-- The rows a received packet can be (R89). -/
def packetRow : Instr → Bool
  | .replyStart _ | .replyStatusGet _ | .replyBufferSize _ | .replyWlanConnect _ | .replySocket _ | .replyBind _ => true
  | .replyRecv _ | .replyAccept _ | .replyListen _ | .replyConnect _ | .replySelect _ | .replyClose _ => true
  | .evDhcp _ | .evCloseWait _ | .evUnsolicitedOther .. | .replyOther .. | .replyUnexpected .. => true
  | .tagUnrecognised _ | .packetMalformed _ | .dataIn .. => true
  | _ => false

/-- The case of `ON_INTERRUPT` for each state (R123 to R127). -/
def interruptRow : DrvState → Instr
  | .commandRequest => .onInterruptCommandRequest
  | .dataRequest => .onInterruptDataRequest
  | .startSequence | .awaitingReply | .idle | .receivingData => .onInterruptReadHeader
  | .init | .sendingCommand | .sendingData | .readingHeader | .readingPayload | .eventReady => .onInterruptUnhandled

/-- The case of `ON_TRANSPORT_COMPLETE` for each state with a transaction in flight (R129 to R132). -/
def completionRow (n : Nat) : DrvState → Option Instr
  | .sendingCommand => some (.onTransportCompleteSendingCommand n)
  | .sendingData => some (.onTransportCompleteSendingData n)
  | .readingHeader => some .onTransportCompleteReadingHeader
  | .readingPayload => some (.onTransportCompleteReadingPayload n)
  | _ => none

/-- The case of `SM_POLL` for each socket state (R194). -/
def slotRow (dt : Word32) (i : Nat) : SockState → Instr
  | .init => .smPollInit i
  | .created => .smPollCreated i
  | .failed => .smPollFailed i dt
  | .ready => .smPollReady i
  | .closeWait => .smPollCloseWait i
  | .creating | .connecting | .closing | .binding | .bound | .listening | .accepting => .smPollOtherStates i

/-- The case of `SOCK_REPLY` for each socket-lifecycle opcode (R172). -/
def replyRow (p : Params) (opcode : Opcode) (args : List Byte) (cur : Option Nat) : Instr :=
  if opcode = p.opcSocket then .sockReplySocket args cur
  else if opcode = p.opcConnect then .sockReplyConnect args cur
  else if opcode = p.opcClose then .sockReplyClose args cur
  else if opcode = p.opcSelect then .sockReplySelect args cur
  else if opcode = p.opcRecv then .sockReplyRecv args cur
  else .sockReplyServer opcode args cur

/-- The eight socket-lifecycle opcodes (R165). -/
def lifecycle (p : Params) : List Opcode :=
  [p.opcSocket, p.opcBind, p.opcConnect, p.opcListen, p.opcAccept, p.opcClose, p.opcSelect, p.opcRecv]

/-- The schedule entry that holds an encoding, with the levels its `irq=` gives. -/
def stimulus (irq : List Level) : Encoding → Stimulus
  | .wire site bytes => .wire site bytes
  | .line op => .line op irq

/-! ### Relations between a state and a later one -/

/-- Slot `i` holds a context whose descriptor is meaningful and is `d` (R40, R192). -/
def Found (s : State) (d : Word32) (i : Nat) : Prop :=
  ∃ k, s.sm.table[i]? = some k ∧ k.state ≠ .init ∧ k.state ≠ .creating ∧ k.descriptor = d

/-- A socket's transitions, the table of R213. -/
def sockTransition : SockState → SockState → Bool
  | .init, .creating => true
  | .creating, .created => true
  | .created, .connecting => true
  | .created, .ready => true
  | .connecting, .ready => true
  | .connecting, .failed => true
  | .failed, .init => true
  | .ready, .closing => true
  | .closeWait, .closing => true
  | .closing, .init => true
  | .binding, .bound => true
  | .listening, .accepting => true
  | .accepting, .ready => true
  | a, .closeWait => decide (a ≠ .init ∧ a ≠ .creating)
  | _, _ => false

/-- No counter of the driver context has gone down (R30, R31). -/
def CountersGrow (a b : Driver) : Prop :=
  a.statInterrupts ≤ b.statInterrupts ∧ a.statSpiCompletions ≤ b.statSpiCompletions ∧
    a.statCommands ≤ b.statCommands ∧ a.statEvents ≤ b.statEvents ∧ a.statUnsolicited ≤ b.statUnsolicited ∧
    a.statBytesTx ≤ b.statBytesTx ∧ a.statBytesRx ≤ b.statBytesRx ∧
    a.statUnhandledInterrupts ≤ b.statUnhandledInterrupts

/-- Every slot in use is still in use, with the connection parameters it was filled with, and its counters have not
gone down (R35, R41, R44, R190). -/
def SlotsStay (a b : SocketManager) : Prop :=
  ∀ (i : Nat) (k : Socket), a.table[i]? = some k → ∃ l : Socket, b.table[i]? = some l ∧ l.family = k.family ∧
    l.type = k.type ∧ l.protocol = k.protocol ∧ l.address = k.address ∧ k.rxCount ≤ l.rxCount ∧ k.rxBytes ≤ l.rxBytes

/-- An effect that drives a line or asks for a transaction. -/
def drives : Effect → Bool
  | .cs _ | .intEn _ | .chipEn _ | .xfer .. | .xferBlocking .. => true
  | _ => false

/-- The lowest slot `SOCK_LOOKUP(d)` finds (R192). -/
def Lowest (s : State) (d : Word32) (i : Nat) : Prop := Found s d i ∧ ∀ j < i, ¬Found s d j

/-- What a reply for socket `cur` in state `expected` leaves: the context it gives, and no change for any other (R202
to R207, D36). -/
def Replied (cur : Option Nat) (expected : SockState) (new : Socket → Socket) (s t : State) : Prop :=
  (∀ i k, cur = some i → s.sm.table[i]? = some k → k.state = expected → t = withSlot i (new k) s) ∧
    ((∀ i k, cur = some i → s.sm.table[i]? = some k → k.state ≠ expected) → t = s)

/-- The slot index `SM.current` then holds: the slot's own, of 3 bits (R36); for a number that is no slot's, any index (the
model's choice, log 19). -/
def slotOf (n : Nat) : Slot := if h : n < 8 then ⟨n, h⟩ else Config.slotBeyond n

/-- `sock_issue(i, opcode, args)` in `s` returns `r` and leaves `t`, slot `i` then holding `k` when it was accepted
(R193 and the rules that call it). -/
def IssueFor (i : Nat) (k : Socket) (opcode : Opcode) (args : List Byte) (s t : State) (r : Status) : Prop :=
  ∃ u, Issue opcode args s u r ∧
    t = if r = .ok then { u with sm := { u.sm with current := some (slotOf i), table := u.sm.table.set i k } } else u

/-- `sock_issue(i, opcode, args)` for a slot that is free: the same, but that the slot keeps nothing (R35; log 19). -/
def IssueForFree (i : Nat) (opcode : Opcode) (args : List Byte) (s t : State) (r : Status) : Prop :=
  ∃ u, Issue opcode args s u r ∧ t = if r = .ok then { u with sm := { u.sm with current := some (slotOf i) } } else u

end Sys2Proof.Spec

open Sys2Proof Sys2Proof.Machine Sys2Proof.Spec

/-! ### Encoding and decoding -/

/-- Every well-formed instruction is what its encoding decodes to, under every choice of parameters that meets R7 and,
for a reply, with a pending command under which its bytes mean it (R8, R81 to R83, R89, R91; the places of the wire
forms are log 20, the trace lines the spec does not write out are log 21). -/
def Obligations.DecodeOfEncodeGivesTheInstruction : Prop :=
  ∀ (p : Params) (pending : Option Opcode) (i : Instr), p.wf = true → i.wf p = true →
    pendingFits p pending i = true → decode p pending (encode p i) = .instr i

/-- A few words written out from the encodings of R81 to R83, R88 and R89, and R91's line for POLL, under the default
parameters, whose numbers are the family's (log 1, GK2 to GK6): sanity only. In order: F8's transport header; F13's read
header; a received header of P1's shape with other busy bytes; F2's status-get command; F10's data frame without its
header; the handshake reply of E1; the unsolicited event of E5, with no arguments; the data packet of P11. The place
each is read at is log 20's. -/
def Obligations.WrittenOutWordsDecode : Prop :=
  decodeWire defaultParams none .txHeader [0x01#8, 0x01#8, 0x23#8, 0x00#8, 0x00#8] = .instr (.xportHdrWrite 0x0123#16) ∧
  decodeWire defaultParams none .txHeader [0x03#8, 0x00#8, 0x00#8, 0x00#8, 0x00#8] = .instr .xportHdrRead ∧
  decodeWire defaultParams none .rxHeader [0x02#8, 0x00#8, 0x09#8, 0x55#8, 0xAA#8] =
    .instr (.xportHdrReceived 0x02#8 9#16 0x55#8 0xAA#8) ∧
  decodeWire defaultParams none .txPacket [0x01#8, 0x09#8, 0x00#8, 0x00#8] = .instr (.cmdStatusGet []) ∧
  decodeWire defaultParams none .txPacket [0x02#8, 0x83#8, 0x00#8, 0x01#8, 0x00#8, 0xAA#8] =
    .instr (.dataSendto [] [0xAA#8]) ∧
  decodeWire defaultParams (some 0x4000#16) .rxPacket [0x04#8, 0x00#8, 0x40#8, 0x01#8, 0x00#8] =
    .instr (.replyStart [0x00#8]) ∧
  decodeWire defaultParams none .rxPacket [0x04#8, 0x00#8, 0x41#8, 0x00#8] = .instr (.evUnsolicitedOther 0x4100#16 []) ∧
  decodeWire defaultParams none .rxPacket
      [0x02#8, 0x85#8, 0x04#8, 0x03#8, 0x00#8, 0x07#8, 0x00#8, 0x00#8, 0x00#8, 0x61#8, 0x62#8, 0x63#8] =
    .instr (.dataIn 0x85#8 [0x07#8, 0x00#8, 0x00#8, 0x00#8] [0x61#8, 0x62#8, 0x63#8]) ∧
  decodeLine ⟨"POLL", [.num 1]⟩ = .instr (.poll 1#32)

/-- No received packet is rejected: whatever bytes the chip supplied, its payload decodes to one of the packet rows, and
DISPATCH on the packet is that row (R89, R160; log 18). A packet that does not fit RX never waits for dispatch (R71);
what stands past the end of RX is any byte (log 19). -/
def Obligations.DispatchIsTheDecodedPacket : Prop :=
  ∀ s : State, s.cfg.wf = true →
    ∃ i t, decodeWire s.cfg s.drv.pendingCommand .rxPacket (readRx 5 (rxLength s) s) = .instr i ∧
      packetRow i = true ∧ exec i s = .next t ∧ exec .dispatch s = .next t

/-! ### The step -/

/-- When the schedule's next entry decodes to `i`, and neither a synchronous completion nor a kept edge comes first, the
step is `exec i` on the state with the entry taken and the levels of its `irq=` supplied; an operation that ends held
stays the next entry, its levels used up (log 7, 8, 9). -/
def Obligations.StepRunsTheDecodedOperation : Prop :=
  ∀ (s : State) (enc : Encoding) (irq : List Level) (rest : List Stimulus) (i : Instr),
    s.env.schedule = stimulus irq enc :: rest → transferDue s = false →
    (s.env.heldEdge && s.drv.intEn) = false → decode s.cfg s.drv.pendingCommand enc = .instr i →
    let given : List Level := match enc with
      | .line _ => irq
      | .wire _ _ => []
    let u : State := { s with env := { s.env with
      schedule := rest
      level := given.headD s.env.level
      levels := if given = [] then s.env.levels else given.tail } }
    step s = match exec i u with
      | .next t =>
        .next (if t.result = .held then { t with env := { t.env with schedule := stimulus [] enc :: rest } } else t)
      | .fault f => .fault f
      | .refused r => .refused r

/-- What the step does when it does not run the schedule's next entry: a synchronous transport's completion comes first
(D55, log 13); with nothing scheduled nothing happens (R247); an entry that is no operation is refused. -/
def Obligations.StepWithoutAnOperation : Prop :=
  (∀ s, transferDue s = true → step s = exec (.onTransportComplete []) s) ∧
  (∀ s, s.env.schedule = [] → transferDue s = false → (s.env.heldEdge && s.drv.intEn) = false → step s = .next s) ∧
  (∀ (s : State) (enc : Encoding) (irq : List Level) (rest : List Stimulus) (e : DecodeError),
    s.env.schedule = stimulus irq enc :: rest → transferDue s = false → (s.env.heldEdge && s.drv.intEn) = false →
    decode s.cfg s.drv.pendingCommand enc = .rejected e → step s = .refused (.undecodable e))

/-- R236, the host's interrupt controller as the model holds it (log 12): while `int_en = 0` an edge causes no
ON_INTERRUPT; it is kept, at most one, or dropped, as `IRQ_HELD_WHILE_MASKED` says; a kept edge is one ON_INTERRUPT as
soon as the line is enabled; an edge while the line is enabled is one ON_INTERRUPT. -/
def Obligations.EdgesAreServedKeptOrDropped : Prop :=
  (∀ (s : State) (rest : List Stimulus), s.env.schedule = .edge :: rest → transferDue s = false →
    s.drv.intEn = false →
    step s = .next { s with env := { s.env with
      schedule := rest
      heldEdge := s.env.heldEdge || s.cfg.irqHeldWhileMasked } }) ∧
  (∀ s : State, transferDue s = false → s.env.heldEdge = true → s.drv.intEn = true →
    step s = exec .onInterrupt { s with env := { s.env with heldEdge := false } }) ∧
  (∀ (s : State) (rest : List Stimulus), s.env.schedule = .edge :: rest → transferDue s = false →
    s.env.heldEdge = false → s.drv.intEn = true →
    step s = exec .onInterrupt { s with env := { s.env with schedule := rest } })

/-! ### Reset -/

/-- R48, R49: every register the reset table gives a value, an empty effect history, and what a slot holds when the
first SOCK_ADD fills it. All but `state` and a new socket's descriptor are the spec's own choice (D48). -/
def Obligations.ResetRegisters : Prop :=
  let d := State.reset.drv
  (d.state = .init ∧ d.pendingCommand = none ∧ d.transmitLength = 0 ∧ d.wlanStatus = State.reset.cfg.wlanDisconnected ∧
    d.dhcpComplete = false ∧ d.ipConfig = [] ∧ d.buffersAvailable = 0 ∧ d.interruptPending = false) ∧
  (d.statInterrupts = 0 ∧ d.statSpiCompletions = 0 ∧ d.statCommands = 0 ∧ d.statEvents = 0 ∧ d.statUnsolicited = 0 ∧
    d.statBytesTx = 0 ∧ d.statBytesRx = 0 ∧ d.statUnhandledInterrupts = 0 ∧ d.unhandledState = none) ∧
  (d.statusTimer = 0 ∧ d.cs = false ∧ d.intEn = false ∧ d.chipEn = false ∧ d.xfer = none) ∧
  (State.reset.sm.count = 0 ∧ State.reset.sm.current = none ∧ State.reset.sm.selectPending = false) ∧
  State.reset.effects = [] ∧
  ∀ (family type protocol : Word32) (address : List Byte),
    ∃ t, exec (.sockAdd family type protocol address) State.reset = .next t ∧
      t.sm.table = [⟨.init, State.reset.cfg.descInvalid, family, type, protocol, address, 0, false, 0, 0⟩]

/-- The state after reset meets the four invariants. The empty schedule and buffers that read as zero are the model's
choice (log 4, log 7). -/
def Obligations.ResetMeetsTheInvariants : Prop :=
  EngineInv State.reset ∧ TableInv State.reset ∧ BuffersCanonical State.reset ∧ BuffersInRange State.reset

/-! ### Invariants of every step -/

/-- R33, R34, R64, R71 (invariants the spec derives): from every state that meets the sequencer's invariant, a step
leads to one that does. -/
def Obligations.StepKeepsTheEngineInvariant : Prop := ∀ s t, EngineInv s → step s = .next t → EngineInv t

/-- R35, R36, R40, R45, R200 (invariants the spec derives): with the sequencer's invariant, a step keeps the socket
manager's. -/
def Obligations.StepKeepsTheTableInvariant : Prop :=
  ∀ s t, EngineInv s → TableInv s → step s = .next t → TableInv t

/-- Both buffers stay in canonical form, whatever is scheduled (the model's form of a buffer, log 4). -/
def Obligations.StepKeepsTheBuffersCanonical : Prop :=
  ∀ s t, BuffersCanonical s → step s = .next t → BuffersCanonical t

/-- R71: no step writes a buffer address outside `0 .. BUF_SIZE-1`, whatever is scheduled (for the operands the callers
exclude this is the model's choice, log 19). -/
def Obligations.StepKeepsTheBuffersInRange : Prop :=
  ∀ s t, BuffersInRange s → step s = .next t → BuffersInRange t

/-- R141: `set_state` writes the state and reports it, also when nothing changes; and it is the only writer: every
operation appends to the effect history, and the transitions it reports lead from its first state to its last. When the
observer fires is the spec's own choice (D54). -/
def Obligations.SetStateIsTheOnlyWriter : Prop :=
  (∀ target s, exec (.setState target) s = .next { s with
    drv := { s.drv with state := target }
    effects := s.effects ++ [.obsTransition s.drv.state target]
    result := .nothing }) ∧
  ∀ i s t, exec i s = .next t →
    ∃ new, t.effects = s.effects ++ new ∧ traceState s.drv.state new = some t.drv.state

/-- R144, which the spec derives: every transition a step reports, from a state that meets the sequencer's invariant, is
a pair of the table. The receive reply's row is its two calls of `set_state` (R165, R206; log 29). -/
def Obligations.TransitionsAreThoseOfTheTable : Prop :=
  ∀ s t, EngineInv s → step s = .next t →
    ∃ new, t.effects = s.effects ++ new ∧ ∀ a b, Effect.obsTransition a b ∈ new → transitionAllowed a b = true

/-- R68: while a transaction is in flight no step writes TX, and RX changes only in the step that ends it; a step that
does not end it reads nothing of RX: with any other RX it is the same step. While none is in flight, no step writes RX.
(The step that ends a transaction reads the header just received, R131.) -/
def Obligations.BuffersHaveOneOwner : Prop :=
  ∀ s t, EngineInv s → step s = .next t →
    (s.drv.xfer ≠ none → t.tx = s.tx ∧
      (t.rx = s.rx ∨ t.drv.statSpiCompletions = s.drv.statSpiCompletions + 1) ∧
      (t.drv.statSpiCompletions = s.drv.statSpiCompletions →
        ∀ rx : Memory, step { s with rx := rx } = .next { t with rx := rx })) ∧
    (s.drv.xfer = none → t.rx = s.rx)

/-- R234, R248: however many steps a run from a state that meets the invariants takes, it is never lost: it goes on in a
state that meets them, unless it has come to `ReadingHeader` and a received length that does not fit RX, or the schedule
holds something that is no operation. -/
def Obligations.NoFatalPath : Prop :=
  ∀ (k : Nat) (s : State), EngineInv s → TableInv s →
    match Sys2Proof.core.run k s with
    | .next t => EngineInv t ∧ TableInv t
    | .fault _ => ∃ j < k, ∃ u : State, Sys2Proof.core.run j s = .next u ∧ u.drv.state = .readingHeader ∧
        step u = .fault Fault.rxOverflow
    | .refused r => ∃ e, r = Refusal.undecodable e

/-- What no operation ever does: change a parameter, move a counter down (R30, R31, R44), free a slot or change a
socket's connection parameters (R35, R41, R190), clear `dhcp_complete` (R29), disable the chip (R247). -/
def Obligations.NothingIsTakenBack : Prop :=
  ∀ i s t, exec i s = .next t →
    t.cfg = s.cfg ∧ CountersGrow s.drv t.drv ∧ SlotsStay s.sm t.sm ∧ s.sm.count ≤ t.sm.count ∧
      (s.drv.dhcpComplete = true → t.drv.dhcpComplete = true) ∧ (s.drv.chipEn = true → t.drv.chipEn = true)

/-- R213, which the spec derives: an agent's operation, a dispatch or one `SM_POLL` changes each socket's state along
one pair of the table, or not at all. (POLL is a dispatch followed by an `SM_POLL`: PollIsItsFourParts.) -/
def Obligations.SocketTransitionsAreThoseOfTheTable : Prop :=
  ∀ i s t, s.cfg.wf = true →
    (byAgent i = true ∧ (∀ dt, i ≠ .poll dt)) ∨ i = .dispatch ∨ i = .pollDispatch ∨
      (∃ dt, i = .smPoll dt ∨ i = .pollSocketManager dt) →
    exec i s = .next t →
    ∀ (n : Nat) (a b : Socket), s.sm.table[n]? = some a → t.sm.table[n]? = some b →
      b.state = a.state ∨ sockTransition a.state b.state = true

/-- R176, which the spec derives: DISPATCH never writes RX, never clears `interrupt_pending`, starts no transaction;
and it writes TX and drives the lines only when the packet is the status-get reply that says "disconnected". -/
def Obligations.WhatDispatchNeverDoes : Prop :=
  ∀ s t, exec .dispatch s = .next t →
    t.rx = s.rx ∧ t.drv.interruptPending = s.drv.interruptPending ∧
    ∃ new, t.effects = s.effects ++ new ∧
      (∀ e ∈ new, ∀ kind n v, e ≠ .xfer kind n ∧ e ≠ .xferBlocking kind n ∧ e ≠ .chipEn v) ∧
      (s.cfg.wf = true →
        (∀ args, decodeWire s.cfg s.drv.pendingCommand .rxPacket (readRx 5 (rxLength s) s) =
            .instr (.replyStatusGet args) →
          exStatus s.cfg.codec args ≠ some s.cfg.wlanDisconnected) →
        t.tx = s.tx ∧ ∀ e ∈ new, drives e = false)

/-! ### The framer -/

/-- R101, R102, R103: FRAME_COMMAND and FRAME_DATA leave the frame in `TX[0 .. n-1]`, its length in `transmit_length`,
and return it; or refuse it with Invalid, writing nothing (the error kind is the spec's own choice, D9).
FRAME_READ_HEADER leaves the five bytes of a read header, unpadded (D6). Under a BUF_SIZE that R7 or R24 excludes, what
does not fit is log 19's. -/
def Obligations.FramesAreBuiltOrRefused : Prop :=
  (∀ opcode args s,
    if args.length > 255 ∨ 5 + (4 + args.length) + 1 > s.cfg.bufSize then
      exec (.frameCommand opcode args) s = .next { s with result := .raised .invalid }
    else
      ∃ t, Framed (commandFrame s.cfg opcode args) s t ∧
        exec (.frameCommand opcode args) s = .next { t with result := .length (commandFrame s.cfg opcode args).length }) ∧
  (∀ dopcode args data s,
    (DataInvalid s.cfg args data →
      exec (.frameData dopcode args data) s = .next { s with result := .raised .invalid }) ∧
    (¬DataInvalid s.cfg args data →
      ∃ t, Framed (dataFrame s.cfg dopcode args data) s t ∧
        exec (.frameData dopcode args data) s =
          .next { t with result := .length (dataFrame s.cfg dopcode args data).length })) ∧
  (∀ s, ∃ t, Framed (readHeaderFrame s.cfg) s t ∧ exec .frameReadHeader s = .next { t with result := .length 5 })

/-- R100: for a payload that fits TX with room for a padding byte (and a TX of a size `transmit_length` can count, R24),
FRAME_TRANSPORT writes the five header bytes and, after an even payload, one padding byte, and nothing else of TX; it
records and returns the even total. -/
def Obligations.TransportHeadersAreBuilt : Prop :=
  ∀ (type : Byte) (payloadLen : Nat) (s : State), 5 + payloadLen + 1 ≤ s.cfg.bufSize →
    s.cfg.bufSize ≤ 65535 →
    let n := 5 + payloadLen + (5 + payloadLen) % 2
    ∃ t, exec (.frameTransport type payloadLen) s = .next t ∧
      (∀ x, memRead t.tx x =
        if x < 5 then [type, hi (n - 5), lo (n - 5), 0x00#8, 0x00#8].getD x 0x00#8
        else if x = 5 + payloadLen ∧ x < n then s.cfg.padByte
        else memRead s.tx x) ∧
      { t with tx := s.tx } = { s with
        drv := { s.drv with transmitLength := BitVec.ofNat 16 n }
        result := .length n }

/-- The format rows, read by the model as operations (log 17, log 18). CMD_HDR, DATA_HDR_OUT and XPORT_HDR_READ are
the framer's operations of R102, R103 and R101; DATA_HDR_IN is the data packet of R162; XPORT_HDR_WRITE writes the
header of a frame whose padded payload has `length` bytes; XPORT_HDR_RECEIVED puts the chip's five bytes in
`RX[0..4]`, the length at `RX_LEN_OFFSET`, and reads type and length from them; PAD pads the frame in TX when its
length is odd, the read header's 5 included (the model's choice: R64 and R101 leave that frame unpadded and no rule runs PAD
over it, log 17). A length past the end of TX or of 16 bits is log 19's. -/
def Obligations.FormatRows : Prop :=
  (∀ (length : BitVec 16) (s : State),
    ∃ t : State, Written s.cfg.bufSize s.tx t.tx 0 [s.cfg.spiOpWrite, hi length.toNat, lo length.toNat, 0x00#8, 0x00#8] ∧
      { t with tx := s.tx } = { s with
        drv := { s.drv with transmitLength := held (5 + length.toNat) } } ∧
      exec (.xportHdrWrite length) s = .next { t with result := .length (5 + length.toNat) }) ∧
  (∀ (type : Byte) (length : BitVec 16) (busy0 busy1 : Byte) (s : State), 5 ≤ s.cfg.bufSize →
    ∃ t : State, Written s.cfg.bufSize s.rx t.rx 0
        (match s.cfg.rxLenOffset with
          | .one => [type, hi length.toNat, lo length.toNat, busy0, busy1]
          | .three => [type, busy0, busy1, hi length.toNat, lo length.toNat]) ∧
      { t with rx := s.rx } = s ∧
      exec (.xportHdrReceived type length busy0 busy1) s =
        .next { t with result := .transport type length.toNat }) ∧
  (∀ s : State, s.drv.transmitLength.toNat < 5 ∨ s.drv.transmitLength.toNat % 2 = 0 →
    exec .pad s = .next { s with result := .length s.drv.transmitLength.toNat }) ∧
  (∀ s : State, 5 ≤ s.drv.transmitLength.toNat → s.drv.transmitLength.toNat % 2 = 1 →
    let n := s.drv.transmitLength.toNat
    ∃ t, exec .pad s = .next t ∧
      (∀ x, memRead t.tx x =
        if s.cfg.bufSize ≤ x then memRead s.tx x
        else if x = n then s.cfg.padByte
        else if x = 1 then hi (n - 4)
        else if x = 2 then lo (n - 4)
        else memRead s.tx x) ∧
      { t with tx := s.tx } = { s with
        drv := { s.drv with transmitLength := held (n + 1) }
        result := .length (n + 1) }) ∧
  (∀ opcode args s, ∃ t, exec (.frameCommand opcode args) s = .next t ∧ exec (.cmdHdr opcode args) s = .next t) ∧
  (∀ dopcode args data s,
    ∃ t, exec (.frameData dopcode args data) s = .next t ∧ exec (.dataHdrOut dopcode args data) s = .next t) ∧
  (∀ s, ∃ t, exec .frameReadHeader s = .next t ∧ exec .xportHdrRead s = .next t) ∧
  (∀ dopcode dargs data s,
    ∃ t, exec (.dataIn dopcode dargs data) s = .next t ∧ exec (.dataHdrIn dopcode dargs data) s = .next t)

/-- R104, R105, R106: what the three parsers read from RX; none writes anything. R105 and R106 are marked derived by the
spec, the place of the length is its D5. A field of a data frame that ends past RX, which no run reaches (R71), is read
there as any bytes (log 19). -/
def Obligations.ParsersReadTheFields : Prop :=
  (∀ s, exec .parseTransport s = .next { s with result := .transport (memRead s.rx 0) (rxLength s) }) ∧
  (∀ s : State, s.cfg.wf = true →
    let k := (memRead s.rx 8).toNat
    let header : Option EventHeader :=
      if rxLength s < 4 ∨ 4 + k > rxLength s then none
      else some ⟨memRead s.rx 5, BitVec.ofNat 16 ((memRead s.rx 6).toNat + 256 * (memRead s.rx 7).toNat), k,
        memReadBytes s.rx 9 k⟩
    exec .parseEventHeader s = .next { s with result := .event header }) ∧
  (∀ s : State, 10 ≤ s.cfg.bufSize →
    let k := (memRead s.rx 7).toNat
    let plen := (memRead s.rx 8).toNat + 256 * (memRead s.rx 9).toNat
    let m := if s.cfg.dataLenCountsArgs then plen - k else plen
    let header : Option DataHeader :=
      if rxLength s < 5 ∨ (s.cfg.dataLenCountsArgs = true ∧ plen < k) ∨ 5 + k + m > rxLength s then none
      else some ⟨memRead s.rx 5, memRead s.rx 6, k, readRx 10 k s, m, readRx (10 + k) m s⟩
    exec .parseDataHeader s = .next { s with result := .data header } ∧
    (10 + k + m ≤ s.cfg.bufSize →
      readRx 10 k s = memReadBytes s.rx 10 k ∧ readRx (10 + k) m s = memReadBytes s.rx (10 + k) m))

/-- R107: framing, copying `TX[0 .. n-1]` to RX, taking `L = BE16(RX[1], RX[2])` and parsing recovers the tag, the
opcode, the count, the arguments and (for a data frame) the data, for every value of the parameters. The precise form of
the law is marked derived by the spec. -/
def Obligations.FramingRoundTrip : Prop :=
  (∀ opcode args s, s.cfg.wf = true → args.length ≤ 255 →
    ∃ t n, exec (.frameCommand opcode args) s = .next t ∧ t.result = .length n ∧
      ∀ rx : Memory, (∀ x < n, memRead rx x = memRead t.tx x) →
        parseEventPayload (memReadBytes rx 5 (256 * (memRead rx 1).toNat + (memRead rx 2).toNat)) =
          some ⟨s.cfg.tagCmd, opcode, args.length, args⟩) ∧
  (∀ dopcode args data s, s.cfg.wf = true → ¬DataInvalid s.cfg args data →
    ∃ t n, exec (.frameData dopcode args data) s = .next t ∧ t.result = .length n ∧
      ∀ rx : Memory, (∀ x < n, memRead rx x = memRead t.tx x) →
        parseDataPayload s.cfg (memReadBytes rx 5 (256 * (memRead rx 1).toNat + (memRead rx 2).toNat)) =
          some ⟨s.cfg.tagData, dopcode, args.length, args, data.length, data⟩)

/-- R108: whenever FRAME_COMMAND or FRAME_DATA succeeds it returns an even number, equal to `transmit_length` and to
`5 + BE16(TX[1], TX[2])`, at least 10 and at most `BUF_SIZE`. The spec marks the law as derived. -/
def Obligations.FramesHaveEvenLength : Prop :=
  ∀ i s t n, ((∃ opcode args, i = .frameCommand opcode args) ∨ (∃ dopcode args data, i = .frameData dopcode args data)) →
    s.cfg.wf = true → exec i s = .next t → t.result = .length n →
    n % 2 = 0 ∧ n = t.drv.transmitLength.toNat ∧
      n = 5 + (256 * (memRead t.tx 1).toNat + (memRead t.tx 2).toNat) ∧ 10 ≤ n ∧ n ≤ s.cfg.bufSize

/-- What an operation run by itself does with operands its callers exclude (R35, R71, R100), the model's choice
throughout (log 19): FRAME_TRANSPORT of a payload of any length writes what falls into TX, and a total that does not fit
16 bits leaves any value in `transmit_length`; `sock_issue` for a free slot issues the command and makes the slot current;
a per-slot rule on a free slot finds any context `k` there, which uses up one of those drawn, and does everything else the
rule says, the slot keeping nothing. An index of 8 or more, which is no slot's, is treated as a free slot, and `SM.current`
then holds any index. -/
def Obligations.OperandsTheCallersExcludeRun : Prop :=
  (∀ (type : Byte) (payloadLen : Nat) (s : State),
    let n := 5 + payloadLen + (5 + payloadLen) % 2
    ∃ t, exec (.frameTransport type payloadLen) s = .next t ∧
      (∀ x, memRead t.tx x =
        if s.cfg.bufSize ≤ x then memRead s.tx x
        else if x < 5 then [type, hi (n - 5), lo (n - 5), 0x00#8, 0x00#8].getD x 0x00#8
        else if x = 5 + payloadLen ∧ x < n then s.cfg.padByte
        else memRead s.tx x) ∧
      { t with tx := s.tx } = { s with
        drv := { s.drv with transmitLength := held n }
        result := .length n }) ∧
  (∀ (n : Nat) (s : State), s.sm.count ≤ n → s.cfg.wf = true →
    let d : State := { s with env := { s.env with slotDraws := s.env.slotDraws + 1 } }
    (∀ opcode args, ∃ t r, IssueForFree n opcode args s t r ∧
      exec (.sockIssue n opcode args) s = .next { t with result := returned r }) ∧
    ∃ k : Socket,
      (∃ t r, IssueForFree n s.cfg.opcSocket (argsCreate s.cfg.codec k.family k.type k.protocol) d t r ∧
        exec (.smPollInit n) s = .next { t with result := .nothing }) ∧
      (if k.type = s.cfg.typeStream then
        ∃ t r, IssueForFree n s.cfg.opcConnect (argsConnect s.cfg.codec k.descriptor k.address) d t r ∧
          exec (.smPollCreated n) s = .next { t with result := .nothing }
      else exec (.smPollCreated n) s = .next { d with result := .nothing }) ∧
      (∀ dt, exec (.smPollFailed n dt) s = .next { d with result := .nothing }) ∧
      (if k.readable = true then
        ∃ t r, IssueForFree n s.cfg.opcRecv (argsRecv s.cfg.codec k.descriptor s.cfg.recvMaxLen) d t r ∧
          exec (.smPollReady n) s = .next { t with result := .nothing }
      else exec (.smPollReady n) s = .next { d with result := .nothing }) ∧
      (∃ t r, IssueForFree n s.cfg.opcClose (argsClose s.cfg.codec k.descriptor) d t r ∧
        exec (.smPollCloseWait n) s = .next { t with result := .nothing }))

/-! ### The sequencer -/

/-- R120: START outside `Init` is InvalidState with no effect; in `Init`, with the line asserted, the whole start
sequence happens in one step; its order is the spec's own choice (D22). Arguments that cannot be framed are Invalid after
the delay, and what START has done by then stays done (R10, R102; log 9). CMD_START is START with the handshake arguments
of its wire form (log 16); what is sent is logged (log 15) and the level read uses up one of those supplied (log 8). -/
def Obligations.StartSendsTheHandshake : Prop :=
  ∀ i args s, (i = .start ∧ args = s.cfg.startArgs) ∨ i = .cmdStart args →
    (s.drv.state ≠ .init → exec i s = .next { s with result := .raised .invalidState }) ∧
    (s.drv.state = .init → s.env.level = .asserted → args.length > 255 →
      exec i s = .next { s with
        drv := { s.drv with cs := true, intEn := false, chipEn := true }
        effects := s.effects ++
          [.intEn false, .chipEn true, .irqLevel .asserted, .cs true, .delay s.cfg.startDelayUs]
        env := s.env.afterRead
        result := .raised .invalid }) ∧
    (s.drv.state = .init → s.env.level = .asserted → args.length ≤ 255 → 1700 ≤ s.cfg.bufSize →
      let frame := commandFrame s.cfg s.cfg.opcStart args
      ∃ t, exec i s = .next t ∧ Written s.cfg.bufSize s.tx t.tx 0 frame ∧
        { t with tx := s.tx } = { s with
          drv := { s.drv with
            state := .startSequence
            pendingCommand := some s.cfg.opcStart
            transmitLength := BitVec.ofNat 16 frame.length
            statCommands := s.drv.statCommands + 1
            statBytesTx := s.drv.statBytesTx + frame.length
            cs := false
            intEn := true
            chipEn := true }
          effects := s.effects ++ [.intEn false, .chipEn true, .irqLevel .asserted, .cs true,
            .delay s.cfg.startDelayUs, .obsCommand s.cfg.opcStart, .xferBlocking .tx frame.length, .cs false,
            .obsTransition .init .startSequence, .intEn true]
          env := { s.env.afterRead with wireOut := s.env.wireOut ++ [frame] }
          result := .ok })

/-- While the line reads idle START has no step yet (R120's hold): nothing of the block changes and no effect is made;
only the environment's supply of levels has been read (log 9). -/
def Obligations.StartHoldsWhileTheLineIsIdle : Prop :=
  ∀ i s, i = .start ∨ (∃ args, i = .cmdStart args) → s.drv.state = .init → s.env.level = .idle →
    exec i s = .next { s with env := s.env.afterRead, result := .held }

/-- R121: every outcome of ISSUE_COMMAND, in the rule's order of checks: Busy and Invalid with nothing changed, the
deferral, and the accepted command. The order of checks and effects is the spec's own choice (D14); reading the line's
level uses up one of the levels supplied (log 8). -/
def Obligations.IssueCommandOutcomes : Prop :=
  ∀ opcode args s, s.cfg.wf = true →
    ∃ t r, Issue opcode args s t r ∧ exec (.issueCommand opcode args) s = .next { t with result := returned r }

/-- The ten command rows other than START and WLAN_CONNECT are ISSUE_COMMAND of their opcode with the arguments of their
wire form (R88, R121; log 16), and leave `SM.current` alone. The order of ISSUE_COMMAND's checks and effects is the spec's
own choice (D14); reading the level uses up one of those supplied (log 8). -/
def Obligations.CommandRowsIssueTheirOpcode : Prop :=
  ∀ i opcode args s, commandRow s.cfg i = some (opcode, args) → s.cfg.wf = true →
    ∃ t r, Issue opcode args s t r ∧ exec i s = .next { t with result := returned r } ∧
      exec (.issueCommand opcode args) s = exec i s

/-- R142: WLAN_CONNECT while not `Idle` is Invalid; otherwise it is ISSUE_COMMAND of OPC_WLAN_CONNECT. The row
CMD_WLAN_CONNECT is the same with the arguments of its wire form (log 16). That "connect" is the WLAN's is the spec's
own choice (D43), and so is the order of ISSUE_COMMAND's checks and effects (D14); reading the level uses up one of those
supplied (log 8). -/
def Obligations.WlanConnectOutcomes : Prop :=
  ∀ i args s, (i = .wlanConnect ∧ args = s.cfg.wlanConnectArgs) ∨ i = .cmdWlanConnect args → s.cfg.wf = true →
    (s.drv.state ≠ .idle → exec i s = .next { s with result := .raised .invalid }) ∧
    (s.drv.state = .idle →
      ∃ t r, Issue s.cfg.opcWlanConnect args s t r ∧ exec i s = .next { t with result := returned r })

/-- R122: every outcome of ISSUE_DATA, the spec's own choice throughout (D17); the level read uses up one of those
supplied (log 8). The row DATA_SENDTO is ISSUE_DATA of DOPC_SENDTO with the arguments and data of its wire form
(log 16). A length that does not fit `transmit_length`, under a BUF_SIZE that R24 excludes, is log 19's. -/
def Obligations.IssueDataOutcomes : Prop :=
  ∀ i dopcode args data s,
    i = .issueData dopcode args data ∨ (i = .dataSendto args data ∧ dopcode = s.cfg.dopcSendto) →
    ∃ t r, IssueData dopcode args data s t r ∧ exec i s = .next { t with result := returned r }

/-- R123: ON_INTERRUPT counts, then does what exactly one of R124 to R127 says, by the state; which state goes to which
rule is in part the spec's own choice (D17, D18, D19, D20). With `int_en = 0`, where R123's precondition fails and R248 and
U10 leave the result open, the model does the same (log 10). -/
def Obligations.InterruptsAreCountedAndServedByState : Prop :=
  ∀ s : State,
    let counted : State := { s with drv := { s.drv with statInterrupts := s.drv.statInterrupts + 1 } }
    ∃ t, exec (interruptRow s.drv.state) counted = .next t ∧ exec .onInterrupt s = .next t

/-- R124, R125, R126, R127: the interrupt's three ways of starting a transaction; and the unhandled interrupt, counted,
its state latched and itself latched as pending, with no effect made. The order of the effects and the one mechanism for
an unhandled interrupt are the spec's own choice (D15, D17, D18, D19, D20). Under a BUF_SIZE below 5, which R7 excludes,
the read header is cut as log 19 says. -/
def Obligations.InterruptsStartTransactions : Prop :=
  (∀ i target s, (i = .onInterruptCommandRequest ∧ target = DrvState.sendingCommand) ∨
      (i = .onInterruptDataRequest ∧ target = DrvState.sendingData) →
    exec i s = .next { s with
      drv := { s.drv with intEn := false, state := target, xfer := some ⟨.tx, s.drv.transmitLength.toNat⟩ }
      effects := s.effects ++
        [.intEn false, .obsTransition s.drv.state target, .xfer .tx s.drv.transmitLength.toNat]
      result := .nothing }) ∧
  (∀ s, ∃ t, ReadStarted s t ∧ exec .onInterruptReadHeader s = .next { t with result := .nothing }) ∧
  (∀ s, exec .onInterruptUnhandled s = .next { s with
    drv := { s.drv with
      statUnhandledInterrupts := s.drv.statUnhandledInterrupts + 1
      unhandledState := some s.drv.state
      interruptPending := true }
    result := .nothing })

/-- R65, R128: the transport has sent `TX[0 .. n-1]` (Tx, Exchange) and stored what the chip supplied at `RX[0]` on
(Exchange) or `RX[5]` on (Rx), and nothing else; the transaction is closed and counted; then the rule of the state runs.
Bytes the schedule does not supply are free (log 14); what is sent is logged for Tx and Exchange (log 15), and what it is
past the end of TX is log 19's. -/
def Obligations.CompletionsCloseTheTransaction : Prop :=
  ∀ (rx : List Byte) (s : State) (x : Xfer) (i : Instr), s.drv.xfer = some x → completionRow x.n s.drv.state = some i →
    ∃ u : State,
      { u with rx := s.rx } = { s with
        drv := { s.drv with xfer := none, statSpiCompletions := s.drv.statSpiCompletions + 1 }
        env := { s.env with
          wireOut := if x.kind = .rx then s.env.wireOut else s.env.wireOut ++ [readTx 0 x.n s]
          chipDraws := if x.kind = .tx then s.env.chipDraws else s.env.chipDraws + (x.n - rx.length) } } ∧
      (match x.kind with
        | .tx => u.rx = s.rx
        | .exchange => Written s.cfg.bufSize s.rx u.rx 0 (supplied rx x.n s.env.chipDraws)
        | .rx => Written s.cfg.bufSize s.rx u.rx 5 (supplied rx x.n s.env.chipDraws)) ∧
      exec (.onTransportComplete rx) s = exec i u ∧
      ((s.drv.state = .readingHeader → 5 + rxLength u ≤ s.cfg.bufSize) →
        ∃ t, exec (.onTransportComplete rx) s = .next t)

/-- R129, R130, R132, R133: the ends of a transaction that count its bytes and release the chip. Chip-select and the
order of effects are the spec's own choice (D13, D16, D17). -/
def Obligations.CompletionsReleaseTheChip : Prop :=
  (∀ n s, exec (.onTransportCompleteSendingCommand n) s = .next { released .awaitingReply
    { s with drv := { s.drv with statBytesTx := s.drv.statBytesTx + n } } with result := .nothing }) ∧
  (∀ n s, exec (.onTransportCompleteSendingData n) s = .next { released .idle
    { s with drv := { s.drv with statBytesTx := s.drv.statBytesTx + n } } with result := .nothing }) ∧
  (∀ n s, exec (.onTransportCompleteReadingPayload n) s = .next { released .eventReady
    { s with drv := { s.drv with statBytesRx := s.drv.statBytesRx + n } } with result := .nothing }) ∧
  (∀ s, exec .finishReceive s = .next { released .eventReady s with result := .nothing })

/-- R131: after the header, no payload ends the receive in the order of R133 (D13), a payload that fits is read, one that
does not is the fault RxOverflow, the spec's own choice where the source is silent (R71, D9, U5). -/
def Obligations.HeaderDecidesThePayload : Prop :=
  ∀ s : State,
    let c : State := { s with drv := { s.drv with statBytesRx := s.drv.statBytesRx + 5 } }
    exec .onTransportCompleteReadingHeader s =
      if rxLength s = 0 then .next { released .eventReady c with result := .nothing }
      else if 5 + rxLength s > s.cfg.bufSize then .fault .rxOverflow
      else .next { c with
        drv := { c.drv with state := .readingPayload, xfer := some ⟨.rx, rxLength s⟩ }
        effects := s.effects ++ [.obsTransition s.drv.state .readingPayload, .xfer .rx (rxLength s)]
        result := .nothing }

/-- R134: a completion with no transaction in flight is InvalidState; nothing is written, nothing counted (the spec's
own choice, D21). -/
def Obligations.CompletionWithoutATransactionIsRefused : Prop :=
  ∀ s, exec .onTransportCompleteNoTransaction s = .next { s with result := .raised .invalidState } ∧
    (s.drv.xfer = none → ∀ rx, exec (.onTransportComplete rx) s = .next { s with result := .raised .invalidState })

/-- R143: the accessors return the register and change nothing. -/
def Obligations.AccessorsReadTheirRegister : Prop :=
  ∀ s, exec .getWlanStatus s = .next { s with result := .wlanStatus s.drv.wlanStatus } ∧
    exec .getBuffers s = .next { s with result := .buffers s.drv.buffersAvailable } ∧
    exec .getIpConfig s = .next { s with result := .ipConfig s.drv.ipConfig }

/-! ### The polling loop -/

/-- R136, R137: P1 is DISPATCH in `EventReady`, its verdict discarded, and never ends in `EventReady`; P2 starts a read
for a latched interrupt in the three states that can serve it (the spec's own choice, D23, in the order of effects D18),
and otherwise does nothing. That a dispatch leaves `EventReady` whatever the packet is D25's; what stands past the end of
RX is log 19's. -/
def Obligations.PollDispatchesAndDrains : Prop :=
  (∀ s : State,
    ∃ t, exec .pollDispatch s = .next { t with result := .nothing } ∧ t.drv.state ≠ .eventReady ∧
      (if s.drv.state = .eventReady then exec .dispatch s = .next t else t = s)) ∧
  (∀ s : State,
    if s.drv.interruptPending = true ∧
        (s.drv.state = .idle ∨ s.drv.state = .awaitingReply ∨ s.drv.state = .receivingData) then
      ∃ t, ReadStarted { s with drv := { s.drv with interruptPending := false } } t ∧
        exec .pollDrainLatchedInterrupt s = .next { t with result := .nothing }
    else exec .pollDrainLatchedInterrupt s = .next { s with result := .nothing })

/-- R138: the timer saturates; at the interval, with the driver free, one status-get is tried, and the timer is zero
only if it was accepted (the timer is the spec's own choice, D24, the order of ISSUE_COMMAND's effects D14; the level
read is log 8). -/
def Obligations.PollIssuesTheStatusGet : Prop :=
  ∀ (dt : Word32) (s : State), s.cfg.wf = true →
    let timer : Word32 := BitVec.ofNat 32 (min (s.drv.statusTimer.toNat + dt.toNat) (2 ^ 32 - 1))
    let c : State := { s with drv := { s.drv with statusTimer := timer } }
    if s.cfg.statusPollInterval ≤ timer.toNat ∧ s.drv.state = .idle ∧ s.drv.pendingCommand = none then
      ∃ t r, Issue s.cfg.opcStatusGet [] c t r ∧
        exec (.pollStatusTimer dt) s = .next { t with
          drv := { t.drv with statusTimer := if r = .ok then 0 else timer }
          result := .nothing }
    else exec (.pollStatusTimer dt) s = .next { c with result := .nothing }

/-- R139: P4 is SM_POLL, with the time elapsed, when the network is connected and the address configuration complete, and
does nothing otherwise. -/
def Obligations.TheSocketManagerPollsOnceTheNetworkIsUp : Prop :=
  ∀ (dt : Word32) (s : State),
    if s.drv.wlanStatus = s.cfg.wlanConnected ∧ s.drv.dhcpComplete = true then
      ∃ t, exec (.smPoll dt) s = .next t ∧ exec (.pollSocketManager dt) s = .next t
    else exec (.pollSocketManager dt) s = .next { s with result := .nothing }

/-- R135: POLL is its four parts in order (the spec's own choice, D23), each on the state the one before it left. -/
def Obligations.PollIsItsFourParts : Prop :=
  ∀ (dt : Word32) (s : State),
    ∃ a b c t, exec .pollDispatch s = .next a ∧ exec .pollDrainLatchedInterrupt a = .next b ∧
      exec (.pollStatusTimer dt) b = .next c ∧ exec (.pollSocketManager dt) c = .next t ∧
      exec (.poll dt) s = .next t

/-! ### The dispatcher -/

/-- R160: DISPATCH is the branch its length and tag select; every branch leaves `EventReady` and yields a verdict. The rows
PACKET_MALFORMED and TAG_UNRECOGNISED stand for R175 and R167 (log 18), and it is so in every state, not only in
`EventReady`. -/
def Obligations.DispatchSelectsByTag : Prop :=
  ∀ s : State,
    let row : Instr :=
      if rxLength s = 0 then .packetMalformed []
      else if memRead s.rx 5 = s.cfg.tagData then .dispatchData
      else if memRead s.rx 5 = s.cfg.tagEvent then .dispatchEvent
      else .tagUnrecognised (memRead s.rx 5)
    ∃ t v, exec row s = .next t ∧ exec .dispatch s = .next t ∧ t.drv.state ≠ .eventReady ∧ t.result = .verdict v

/-- R161, R167, R175: resume, and the two packets after which nothing else happens (the spec's own choices, D25, D27,
D28). -/
def Obligations.ResumeAndRefusedPackets : Prop :=
  (∀ s, exec .dispatchResume s = .next { resumed s with result := .nothing }) ∧
  (∀ tag s, exec (.tagUnrecognised tag) s = .next { resumed s with result := .verdict .invalid }) ∧
  (∀ payload s, exec (.packetMalformed payload) s = .next { resumed s with result := .verdict .invalid })

/-- R162: a data packet moves its socket's statistics, is reported and resumes; the row DATA_IN is this for the fields
it holds; a packet that does not parse is malformed. Which statistics move is the spec's own choice (D42); what stands
past the end of RX is log 19's. -/
def Obligations.DataPacketsAreCountedAndReported : Prop :=
  (∀ dopcode dargs data s, ∃ t, exec (.sockData dargs data.length) s = .next t ∧
      exec (.dataIn dopcode dargs data) s = .next { resumed { t with effects := t.effects ++ [.obsData dopcode dargs data] } with
        result := .verdict .data }) ∧
  (∀ s : State,
    ∃ h t, exec .parseDataHeader s = .next { s with result := .data h } ∧ exec .dispatchData s = .next t ∧
      match h with
      | none => exec (.packetMalformed (readRx 5 (rxLength s) s)) s = .next t
      | some d => exec (.dataIn d.dopcode d.dargs d.data) s = .next t)

/-- R163, R166: an event is counted and reported before anything else; then, by its opcode, it is an unsolicited event,
the reply to the pending command, or an unexpected reply, which only resumes (the spec's own choice, D26). Every event
row is this for its opcode (log 18). What stands past the end of RX is log 19's. -/
def Obligations.EventsAreCountedThenSplit : Prop :=
  (∀ i opcode args s, eventRow s.cfg i = some (opcode, args) →
    let u := eventSeen opcode args s
    (unsolThreshold.toNat ≤ opcode.toNat →
      ∃ t, exec (.dispatchUnsolicited opcode args) u = .next t ∧ exec i s = .next t) ∧
    (opcode.toNat < unsolThreshold.toNat → s.drv.pendingCommand = some opcode →
      ∃ t, exec (.dispatchMatchingReply opcode args) u = .next t ∧ exec i s = .next t) ∧
    (opcode.toNat < unsolThreshold.toNat → s.drv.pendingCommand ≠ some opcode →
      exec i s = .next { resumed u with result := .verdict .invalid })) ∧
  (∀ s : State,
    ∃ h t, exec .parseEventHeader s = .next { s with result := .event h } ∧ exec .dispatchEvent s = .next t ∧
      match h with
      | none => exec (.packetMalformed (readRx 5 (rxLength s) s)) s = .next t
      | some e => exec (.eventHdr e.opcode e.args) s = .next t)

/-- R164, R170, R171, R174: an unsolicited event is counted; the DHCP event records the configuration, the close-wait
event marks its socket, any other only gives its verdict; all resume, and the pending command is never touched.
Arguments too short change nothing (the spec's own choice, D27). -/
def Obligations.UnsolicitedEvents : Prop :=
  ∀ opcode args s,
    let u : State := { s with drv := { s.drv with statUnsolicited := s.drv.statUnsolicited + 1 } }
    (opcode = s.cfg.evDhcp →
      exec (.dispatchUnsolicited opcode args) s = .next { resumed (match exIpConfig s.cfg.codec args with
        | none => u
        | some v => { u with drv := { u.drv with ipConfig := v, dhcpComplete := true } }) with
        result := .verdict (.unsolicited opcode) }) ∧
    (opcode ≠ s.cfg.evDhcp → opcode = s.cfg.evCloseWait →
      ∃ t, exec (.dispatchUnsolicited opcode args) s =
          .next { resumed t with result := .verdict (.unsolicited opcode) } ∧
        match exDesc s.cfg.codec args with
        | none => t = u
        | some d => exec (.sockCloseWait d) u = .next { t with result := .nothing }) ∧
    (opcode ≠ s.cfg.evDhcp → opcode ≠ s.cfg.evCloseWait →
      exec (.dispatchUnsolicited opcode args) s =
        .next { resumed u with result := .verdict (.unrecognized opcode) })

/-- R165, R172, R173, R174: a matching reply clears the pending command and the current socket and makes the engine
`Idle` before its own rule runs; a socket-lifecycle reply then runs its SOCK_REPLY case with the socket that was
current; the replies of OPC_START and OPC_WLAN_CONNECT, and one no rule names, do nothing more (the spec's own
choices, D25, D26). -/
def Obligations.MatchingRepliesClearThenAct : Prop :=
  ∀ opcode args s, s.cfg.wf = true →
    (opcode ∈ lifecycle s.cfg →
      ∃ t, exec (replyRow s.cfg opcode args (s.sm.current.map Fin.val)) (replyCleared s) = .next t ∧
        exec (.dispatchMatchingReply opcode args) s = .next { t with result := .verdict (.reply opcode) }) ∧
    (opcode = s.cfg.opcStart ∨ opcode = s.cfg.opcWlanConnect →
      exec (.dispatchMatchingReply opcode args) s =
        .next { replyCleared s with result := .verdict (.reply opcode) }) ∧
    (s.cfg.named opcode = false →
      exec (.dispatchMatchingReply opcode args) s =
        .next { replyCleared s with result := .verdict (.unrecognized opcode) })

/-- R168, R169: the buffer-size reply records the count; the status-get reply records the status and, when it says
"disconnected", issues exactly one WLAN connect, whose result is absorbed. Arguments too short change neither. The
connect's order of effects is D14's, its level read log 8's. -/
def Obligations.BufferSizeAndStatusReplies : Prop :=
  ∀ args s, s.cfg.wf = true →
    let c := replyCleared s
    exec (.dispatchMatchingReply s.cfg.opcBufferSize args) s = .next { c with
      drv := { c.drv with buffersAvailable := (exBuffers s.cfg.codec args).getD s.drv.buffersAvailable }
      result := .verdict (.reply s.cfg.opcBufferSize) } ∧
    ∃ t, exec (.dispatchMatchingReply s.cfg.opcStatusGet args) s =
        .next { t with result := .verdict (.reply s.cfg.opcStatusGet) } ∧
      match exStatus s.cfg.codec args with
      | none => t = c
      | some v =>
        let u : State := { c with drv := { c.drv with wlanStatus := v } }
        if v = s.cfg.wlanDisconnected then
          ∃ r, Issue s.cfg.opcWlanConnect s.cfg.wlanConnectArgs u t r
        else t = u

/-! ### The socket table and the socket manager -/

/-- R191: SOCK_ADD at capacity is Invalid with the table unchanged; otherwise it fills the next slot and returns it
(ascending slots are the spec's own choice, D31; the list of contexts is log 6). -/
def Obligations.SockAddFillsTheNextSlot : Prop :=
  ∀ (family type protocol : Word32) (address : List Byte) (s : State),
    exec (.sockAdd family type protocol address) s =
      if s.sm.count = 8 then .next { s with result := .raised .invalid }
      else .next { s with
        sm := { s.sm with table := s.sm.table ++
          [⟨.init, s.cfg.descInvalid, family, type, protocol, address, 0, false, 0, 0⟩] }
        result := .okSlot s.sm.count }

/-- R192: SOCK_LOOKUP finds the lowest slot whose descriptor is meaningful and equal, and none exactly when there is
none (the order is the spec's own choice, D32). -/
def Obligations.SockLookupFindsTheLowestSlot : Prop :=
  ∀ (d : Word32) (s : State),
    ∃ j, exec (.sockLookup d) s = .next { s with result := .slot j } ∧
      match j with
      | some i => Lowest s d i
      | none => ∀ i, ¬Found s d i

/-- R193, R195, R196, R198, R199: `sock_issue` and the four cases of SM_POLL that issue a command for a slot: accepted,
the slot is current and its context is the one the rule gives; refused, nothing more than ISSUE_COMMAND did. A datagram
socket needs no command (D34), an unreadable one issues none. The order of ISSUE_COMMAND's effects is D14's, its level
read log 8's. In a state of more than eight slots, which no run reaches (R35), the index of a slot past the eighth is
log 19's. -/
def Obligations.SocketCommands : Prop :=
  ∀ (n : Nat) (k : Socket) (s : State), s.sm.table[n]? = some k → s.cfg.wf = true →
    (∀ opcode args, ∃ t r, IssueFor n k opcode args s t r ∧
      exec (.sockIssue n opcode args) s = .next { t with result := returned r }) ∧
    (∃ t r, IssueFor n { k with state := .creating } s.cfg.opcSocket
        (argsCreate s.cfg.codec k.family k.type k.protocol) s t r ∧
      exec (.smPollInit n) s = .next { t with result := .nothing }) ∧
    (if k.type = s.cfg.typeStream then
      ∃ t r, IssueFor n { k with state := .connecting } s.cfg.opcConnect
          (argsConnect s.cfg.codec k.descriptor k.address) s t r ∧
        exec (.smPollCreated n) s = .next { t with result := .nothing }
    else exec (.smPollCreated n) s = .next { withSlot n { k with state := .ready } s with result := .nothing }) ∧
    (if k.readable = true then
      ∃ t r, IssueFor n { k with readable := false } s.cfg.opcRecv
          (argsRecv s.cfg.codec k.descriptor s.cfg.recvMaxLen) s t r ∧
        exec (.smPollReady n) s = .next { t with result := .nothing }
    else exec (.smPollReady n) s = .next { s with result := .nothing }) ∧
    (∃ t r, IssueFor n { k with state := .closing } s.cfg.opcClose (argsClose s.cfg.codec k.descriptor) s t r ∧
      exec (.smPollCloseWait n) s = .next { t with result := .nothing })

/-- R197, R200: a failed socket counts down exactly by the elapsed time, stopping at zero, and returns to `Init`, its
descriptor unset, only in a later poll (the spec's own choice, D35); a socket that waits does nothing (D41). -/
def Obligations.FailedSocketsCountDown : Prop :=
  (∀ (n : Nat) (dt : Word32) (k : Socket) (s : State), s.sm.table[n]? = some k →
    exec (.smPollFailed n dt) s =
      if k.retryTimeout = 0 then
        .next { withSlot n { k with state := .init, descriptor := s.cfg.descInvalid } s with result := .nothing }
      else .next { withSlot n
        { k with retryTimeout := BitVec.ofNat 32 (k.retryTimeout.toNat - min dt.toNat k.retryTimeout.toNat) } s with
        result := .nothing }) ∧
  (∀ n s, exec (.smPollOtherStates n) s = .next { s with result := .nothing })

/-- R194: SM_POLL gives each slot in use one turn, in ascending order, by the state it has when its turn comes, and then
the select (the order is the spec's own choice, D33). -/
def Obligations.SmPollVisitsTheSlotsInOrder : Prop :=
  ∀ (dt : Word32) (s : State), ∃ (v : Nat → State) (t : State), v 0 = s ∧
    (∀ n < s.sm.count, ∃ k, (v n).sm.table[n]? = some k ∧ exec (slotRow dt n k.state) (v n) = .next (v (n + 1))) ∧
    exec .smPollSelect (v s.sm.count) = .next t ∧ exec (.smPoll dt) s = .next t

/-- R201: the select is tried when none is outstanding and the driver is free, with one bit for every `Ready` socket
of descriptor 0 to 31, and not at all when no bit is set; accepted, it is outstanding, and `current` is left alone.
The mask is the spec's own choice (D39), the order of ISSUE_COMMAND's effects D14; the level read is log 8. -/
def Obligations.SelectCoversTheReadySockets : Prop :=
  ∀ s : State, s.cfg.wf = true → ∃ mask : Word32,
    (∀ b < 32, mask.getLsbD b = true ↔
      ∃ k ∈ s.sm.table, k.state = .ready ∧ 0 ≤ k.descriptor.toInt ∧ k.descriptor.toInt = b) ∧
    if s.sm.selectPending = false ∧ s.drv.state = .idle ∧ s.drv.pendingCommand = none ∧ mask ≠ 0 then
      ∃ t r, Issue s.cfg.opcSelect (argsSelect s.cfg.codec mask) s t r ∧
        exec .smPollSelect s = .next { t with
          sm := { s.sm with selectPending := decide (r = .ok) }
          result := .nothing }
    else exec .smPollSelect s = .next { s with result := .nothing }

/-- R202, R203, R204: the create, connect and close replies, on the socket that was current and only in the state the
reply is expected in (the spec's own choices, D27, D36, D37, D38). -/
def Obligations.CreateConnectAndCloseReplies : Prop :=
  ∀ (args : List Byte) (cur : Option Nat) (s : State),
    (∃ t, exec (.sockReplySocket args cur) s = .next { t with result := .nothing } ∧
      match exResult s.cfg.codec args with
      | none => t = s
      | some v => Replied cur .creating (fun k => { k with descriptor := v, state := .created }) s t) ∧
    (∃ t, exec (.sockReplyConnect args cur) s = .next { t with result := .nothing } ∧
      match exResult s.cfg.codec args with
      | none => t = s
      | some v =>
        Replied cur .connecting (fun k => if v = 0 then { k with state := .ready }
          else { k with state := .failed, retryTimeout := s.cfg.connectRetryTimeout }) s t) ∧
    (∃ t, exec (.sockReplyClose args cur) s = .next { t with result := .nothing } ∧
      Replied cur .closing
        (fun k => { k with state := .init, descriptor := s.cfg.descInvalid, readable := false }) s t)

/-- R205, R206, R207: the select reply always clears `select_pending` and marks the `Ready` sockets whose bit is set;
the receive reply moves the engine to `ReceivingData` and touches no socket; the replies of the optional branch (the
spec's own choices, D39, D40, D41). -/
def Obligations.SelectReceiveAndServerReplies : Prop :=
  (∀ (args : List Byte) (cur : Option Nat) (s : State), ∃ table : List Socket,
    exec (.sockReplySelect args cur) s = .next { s with
      sm := { s.sm with selectPending := false, table := table }
      result := .nothing } ∧
    match exSelectRead s.cfg.codec args with
    | none => table = s.sm.table
    | some mask => table.length = s.sm.table.length ∧ ∀ (n : Nat) (k : Socket), s.sm.table[n]? = some k →
      table[n]? = some (if k.state = .ready ∧ 0 ≤ k.descriptor.toInt ∧ k.descriptor.toInt ≤ 31 ∧
        mask.getLsbD k.descriptor.toInt.toNat = true then { k with readable := true } else k)) ∧
  (∀ args cur s, exec (.sockReplyRecv args cur) s = .next { s with
    drv := { s.drv with state := .receivingData }
    effects := s.effects ++ [.obsTransition s.drv.state .receivingData]
    result := .nothing }) ∧
  (∀ (opcode : Opcode) (args : List Byte) (cur : Option Nat) (s : State), s.cfg.wf = true →
    ∃ t, exec (.sockReplyServer opcode args cur) s = .next { t with result := .nothing } ∧
      (opcode = s.cfg.opcBind → Replied cur .binding (fun k => { k with state := .bound }) s t) ∧
      (opcode = s.cfg.opcListen → Replied cur .listening (fun k => { k with state := .accepting }) s t) ∧
      (opcode = s.cfg.opcAccept → Replied cur .accepting (fun k => { k with state := .ready }) s t) ∧
      (opcode ≠ s.cfg.opcBind → opcode ≠ s.cfg.opcListen → opcode ≠ s.cfg.opcAccept → t = s))

/-- R208, R209: close-wait marks, and a data frame is counted on, the lowest socket with that descriptor; a miss changes
nothing (the spec's own choices, D32, D42, D53). -/
def Obligations.EventsAndDataAreRoutedByDescriptor : Prop :=
  (∀ (d : Word32) (s : State), ∃ t, exec (.sockCloseWait d) s = .next { t with result := .nothing } ∧
    (∀ i k, Lowest s d i → s.sm.table[i]? = some k → t = withSlot i { k with state := .closeWait } s) ∧
    ((∀ i, ¬Found s d i) → t = s)) ∧
  (∀ (dargs : List Byte) (m : Nat) (s : State), ∃ t, exec (.sockData dargs m) s = .next { t with result := .nothing } ∧
    match dataDesc s.cfg.codec dargs with
    | none => t = s
    | some d =>
      (∀ i k, Lowest s d i → s.sm.table[i]? = some k →
        t = withSlot i { k with rxCount := k.rxCount + 1, rxBytes := k.rxBytes + m } s) ∧
      ((∀ i, ¬Found s d i) → t = s))

/-- R210, R211, R212: every outcome of SOCK_CLOSE, SOCK_RECV and SEND_TO: Invalid for a slot not in use, InvalidState
for a socket in the wrong state, and otherwise the command or data frame issued for it. The spec's own choice throughout
(D43); the level read is log 8's, what GK9's codec holds for a length of more than 32 bits log 30's. -/
def Obligations.ApplicationSocketOperations : Prop :=
  (∀ (n : Nat) (length : Nat) (data address : List Byte) (i : Instr) (s : State), s.sm.count ≤ n →
    i = .sockClose n ∨ i = .sockRecv n length ∨ i = .sendTo n data address →
    exec i s = .next { s with result := .raised .invalid }) ∧
  (∀ (n : Nat) (k : Socket) (s : State), s.sm.table[n]? = some k → s.cfg.wf = true →
    (if k.state = .ready ∨ k.state = .closeWait then
      ∃ t r, IssueFor n { k with state := .closing } s.cfg.opcClose (argsClose s.cfg.codec k.descriptor) s t r ∧
        exec (.sockClose n) s = .next { t with result := returned r }
    else exec (.sockClose n) s = .next { s with result := .raised .invalidState }) ∧
    (∀ length, if k.state = .ready then
      ∃ t r, IssueFor n { k with readable := false } s.cfg.opcRecv (argsRecv s.cfg.codec k.descriptor length) s t r ∧
        exec (.sockRecv n length) s = .next { t with result := returned r }
    else exec (.sockRecv n length) s = .next { s with result := .raised .invalidState }) ∧
    (∀ data address, if k.state = .ready then
      ∃ t r, IssueData s.cfg.dopcSendto (argsSendto s.cfg.codec k.descriptor data.length address) data s t r ∧
        exec (.sendTo n data address) s = .next { t with result := returned r }
    else exec (.sendTo n data address) s = .next { s with result := .raised .invalidState }))
end

