-- ==== Sys2Proof/Laws/Memory.lean ====
section
/-! SUPPORT. The laws of the two byte buffers: what a read gives after a write, and that every write keeps the
canonical form and the range of addresses. -/

namespace Sys2Proof.Machine

/-! ### One byte -/

theorem memRead_memErase (m : Memory) (a x : Nat) :
    memRead (memErase m a) x = if x = a then unwrittenByte else memRead m x := by
  induction m with
  | nil => simp [memErase, memRead]
  | cons cell rest ih =>
    obtain ⟨c, v⟩ := cell
    unfold memErase at ih ⊢
    by_cases hc : c = a
    · subst hc
      simp only [ne_eq, not_true_eq_false, decide_false, Bool.false_eq_true, not_false_eq_true, List.filter_cons_of_neg,
        memRead]
      rw [ih]
      split <;> simp_all [eq_comm]
    · simp only [ne_eq, hc, not_false_eq_true, decide_true, List.filter_cons_of_pos, memRead]
      split
      · next h => subst h; simp [hc]
      · exact ih

theorem memRead_memInsert (m : Memory) (a x : Nat) (b : Byte) (h : ∀ cell ∈ m, cell.1 ≠ a) :
    memRead (memInsert m a b) x = if x = a then b else memRead m x := by
  induction m with
  | nil => simp [memInsert, memRead, eq_comm]
  | cons cell rest ih =>
    obtain ⟨c, v⟩ := cell
    have hc : c ≠ a := h (c, v) (by simp)
    have ih := ih fun cell hm => h cell (List.mem_cons_of_mem _ hm)
    unfold memInsert
    split
    · simp only [memRead]
      by_cases hx : x = a
      · simp [hx]
      · simp [hx, Ne.symm hx]
    · simp only [memRead]
      by_cases hx : c = x
      · subst hx; simp [hc]
      · simp [hx, ih]

theorem memErase_ne (m : Memory) (a : Nat) : ∀ cell ∈ memErase m a, cell.1 ≠ a := by
  intro cell h
  simpa [memErase] using (List.mem_filter.mp h).2

/-- Reading one byte after writing one byte. -/
theorem memRead_memWrite (m : Memory) (a x : Nat) (b : Byte) :
    memRead (memWrite m a b) x = if x = a then b else memRead m x := by
  unfold memWrite
  split
  · next h => rw [memRead_memErase, h]
  · rw [memRead_memInsert _ _ _ _ (memErase_ne m a), memRead_memErase]
    split <;> rfl

/-! ### Several bytes -/

/-- Reading one byte after writing a byte list: inside it the list's byte, elsewhere what stood there. -/
theorem memRead_memWriteBytes (m : Memory) (a x : Nat) (bytes : List Byte) :
    memRead (memWriteBytes m a bytes) x =
      if a ≤ x ∧ x < a + bytes.length then bytes.getD (x - a) unwrittenByte else memRead m x := by
  induction bytes generalizing m a with
  | nil => simp [memWriteBytes]
  | cons b rest ih =>
    rw [memWriteBytes, ih, memRead_memWrite]
    by_cases hx : x = a
    · subst hx; simp
    · by_cases h1 : a + 1 ≤ x ∧ x < a + 1 + rest.length
      · have h2 : a ≤ x ∧ x < a + (b :: rest).length := by simp; omega
        rw [if_pos h1, if_pos h2]
        obtain ⟨k, rfl⟩ : ∃ k, x = a + (k + 1) := ⟨x - a - 1, by omega⟩
        have e1 : a + (k + 1) - (a + 1) = k := by omega
        have e2 : a + (k + 1) - a = k + 1 := by omega
        rw [e1, e2]
        simp [List.getD]
      · have h2 : ¬(a ≤ x ∧ x < a + (b :: rest).length) := by simp; omega
        rw [if_neg h1, if_neg h2, if_neg hx]

/-- A write leaves every address outside it alone. -/
theorem memRead_memWriteBytes_outside (m : Memory) (a x : Nat) (bytes : List Byte)
    (h : x < a ∨ a + bytes.length ≤ x) : memRead (memWriteBytes m a bytes) x = memRead m x := by
  rw [memRead_memWriteBytes, if_neg (by omega)]

theorem length_memReadBytes (m : Memory) (a n : Nat) : (memReadBytes m a n).length = n := by simp [memReadBytes]

theorem getElem?_memReadBytes (m : Memory) (a n j : Nat) :
    (memReadBytes m a n)[j]? = if j < n then some (memRead m (a + j)) else none := by
  unfold memReadBytes
  split <;> simp_all

/-- Reading back the bytes just written. -/
theorem memReadBytes_memWriteBytes (m : Memory) (a : Nat) (bytes : List Byte) :
    memReadBytes (memWriteBytes m a bytes) a bytes.length = bytes := by
  apply List.ext_getElem?
  intro j
  rw [getElem?_memReadBytes, memRead_memWriteBytes]
  split
  · next h => rw [if_pos (by omega)]; simp [List.getD, h]
  · next h => simp [List.getElem?_eq_none (Nat.le_of_not_lt h)]

/-! ### Canonical form -/

theorem Memory.wf_iff (m : Memory) :
    Memory.wf m = true ↔ (∀ cell ∈ m, cell.2 ≠ unwrittenByte) ∧ (m.map Prod.fst).Pairwise (· < ·) := by
  simp [Memory.wf]

theorem memErase_wf (m : Memory) (a : Nat) (h : Memory.wf m = true) : Memory.wf (memErase m a) = true := by
  rw [Memory.wf_iff] at h ⊢
  exact ⟨fun cell hm => h.1 cell (List.mem_of_mem_filter hm),
    h.2.sublist (List.Sublist.map _ (List.filter_sublist))⟩

theorem mem_memInsert (m : Memory) (a : Nat) (b : Byte) (cell : Host.Cell) :
    cell ∈ memInsert m a b ↔ cell = (a, b) ∨ cell ∈ m := by
  induction m with
  | nil => simp [memInsert]
  | cons d rest ih =>
    unfold memInsert
    split
    · simp
    · simp [ih]; tauto

theorem memInsert_wf (m : Memory) (a : Nat) (b : Byte) (hb : b ≠ unwrittenByte) (hm : Memory.wf m = true)
    (h : ∀ cell ∈ m, cell.1 ≠ a) : Memory.wf (memInsert m a b) = true := by
  rw [Memory.wf_iff] at hm ⊢
  refine ⟨fun cell hc => ?_, ?_⟩
  · rcases (mem_memInsert m a b cell).mp hc with rfl | hc
    · exact hb
    · exact hm.1 cell hc
  · replace hm := hm.2
    induction m with
    | nil => simp [memInsert]
    | cons d rest ih =>
      obtain ⟨c, v⟩ := d
      have hca : c ≠ a := h (c, v) (by simp)
      simp only [List.map_cons, List.pairwise_cons] at hm
      unfold memInsert
      split
      · next hlt =>
        simp only [List.map_cons, List.pairwise_cons, List.mem_cons, forall_eq_or_imp]
        exact ⟨⟨hlt, fun x hx => Nat.lt_trans hlt (hm.1 x hx)⟩, hm⟩
      · next hlt =>
        simp only [List.map_cons, List.pairwise_cons]
        refine ⟨fun x hx => ?_, ih (fun cell hc => h cell (List.mem_cons_of_mem _ hc)) hm.2⟩
        obtain ⟨cell, hcell, rfl⟩ := List.mem_map.mp hx
        rcases (mem_memInsert rest a b cell).mp hcell with rfl | hc
        · show c < a
          omega
        · exact hm.1 _ (List.mem_map.mpr ⟨cell, hc, rfl⟩)

/-- Writing a byte keeps the canonical form. -/
theorem memWrite_wf (m : Memory) (a : Nat) (b : Byte) (h : Memory.wf m = true) :
    Memory.wf (memWrite m a b) = true := by
  unfold memWrite
  split
  · exact memErase_wf m a h
  · next hb => exact memInsert_wf _ _ _ hb (memErase_wf m a h) (memErase_ne m a)

/-- Writing a byte list keeps the canonical form. -/
theorem memWriteBytes_wf (m : Memory) (a : Nat) (bytes : List Byte) (h : Memory.wf m = true) :
    Memory.wf (memWriteBytes m a bytes) = true := by
  induction bytes generalizing m a with
  | nil => exact h
  | cons b rest ih => exact ih _ _ (memWrite_wf m a b h)

/-! ### Range -/

theorem Memory.within_iff (size : Nat) (m : Memory) : Memory.within size m = true ↔ ∀ cell ∈ m, cell.1 < size := by
  simp [Memory.within]

theorem memWrite_within (size : Nat) (m : Memory) (a : Nat) (b : Byte) (h : Memory.within size m = true)
    (ha : a < size) : Memory.within size (memWrite m a b) = true := by
  rw [Memory.within_iff] at h ⊢
  have he : ∀ cell ∈ memErase m a, cell.1 < size := fun cell hm => h cell (List.mem_of_mem_filter hm)
  unfold memWrite
  split
  · exact he
  · intro cell hm
    rcases (mem_memInsert _ _ _ _).mp hm with rfl | hm
    · exact ha
    · exact he cell hm

/-- A byte list that ends inside the buffer keeps every listed address inside it. -/
theorem memWriteBytes_within (size : Nat) (m : Memory) (a : Nat) (bytes : List Byte)
    (h : Memory.within size m = true) (ha : a + bytes.length ≤ size) :
    Memory.within size (memWriteBytes m a bytes) = true := by
  induction bytes generalizing m a with
  | nil => exact h
  | cons b rest ih =>
    simp only [List.length_cons] at ha
    exact ih _ _ (memWrite_within size m a b h (by omega)) (by omega)

/-! ### A buffer of a size (R60, log 19) -/

/-- Reading one byte after writing into a buffer: inside the list and the buffer the list's byte, elsewhere what stood
there. -/
theorem memRead_bufWriteBytes (size : Nat) (m : Memory) (a x : Nat) (bytes : List Byte) :
    memRead (bufWriteBytes size m a bytes) x =
      if a ≤ x ∧ x < a + bytes.length ∧ x < size then bytes.getD (x - a) unwrittenByte else memRead m x := by
  unfold bufWriteBytes
  rw [memRead_memWriteBytes, List.length_take]
  by_cases h : a ≤ x ∧ x < a + bytes.length ∧ x < size
  · rw [if_pos h, if_pos (by omega), List.getD, List.getD, List.getElem?_take_of_lt (by omega)]
  · rw [if_neg h, if_neg (by omega)]

theorem bufWriteBytes_of_fits {size : Nat} {m : Memory} {a : Nat} {bytes : List Byte} (h : a + bytes.length ≤ size) :
    bufWriteBytes size m a bytes = memWriteBytes m a bytes := by
  rw [bufWriteBytes, List.take_of_length_le (by omega)]

/-- Writing into a buffer keeps the canonical form. -/
theorem bufWriteBytes_wf (size : Nat) (m : Memory) (a : Nat) (bytes : List Byte) (h : Memory.wf m = true) :
    Memory.wf (bufWriteBytes size m a bytes) = true := memWriteBytes_wf _ _ _ h

/-- Writing into a buffer keeps every listed address inside it. -/
theorem bufWriteBytes_within (size : Nat) (m : Memory) (a : Nat) (bytes : List Byte)
    (h : Memory.within size m = true) : Memory.within size (bufWriteBytes size m a bytes) = true := by
  unfold bufWriteBytes
  by_cases ha : a ≤ size
  · exact memWriteBytes_within _ _ _ _ h (by rw [List.length_take]; omega)
  · rw [show size - a = 0 by omega]
    exact h

theorem length_readTx (a n : Nat) (s : State) : (readTx a n s).length = n := by simp [readTx]

theorem length_readRx (a n : Nat) (s : State) : (readRx a n s).length = n := by simp [readRx]

/-- Inside TX a read gives the bytes that stand there. -/
theorem readTx_of_fits {a n : Nat} {s : State} (h : a + n ≤ s.cfg.bufSize) : readTx a n s = memReadBytes s.tx a n := by
  unfold readTx memReadBytes
  refine List.map_congr_left fun j hj => ?_
  rw [txByte, if_pos (by have := List.mem_range.1 hj; omega)]

/-- Inside RX a read gives the bytes that stand there. -/
theorem readRx_of_fits {a n : Nat} {s : State} (h : a + n ≤ s.cfg.bufSize) : readRx a n s = memReadBytes s.rx a n := by
  unfold readRx memReadBytes
  refine List.map_congr_left fun j hj => ?_
  rw [rxByte, if_pos (by have := List.mem_range.1 hj; omega)]

theorem heldLength_of_le {n : Nat} (h : n ≤ 65535) : heldLength n = BitVec.ofNat 16 n := if_pos h

end Sys2Proof.Machine
end

