-- ==== Sys2Proof/Laws/State.lean ====
section
/-! SUPPORT. One lemma per field of State and operation that updates it, true by `rfl`, so that no later proof unfolds
a record update. -/

namespace Sys2Proof.Machine

@[simp] theorem emit_cfg (e : Effect) (s : State) : (emit e s).cfg = s.cfg := rfl
@[simp] theorem emit_drv (e : Effect) (s : State) : (emit e s).drv = s.drv := rfl
@[simp] theorem emit_sm (e : Effect) (s : State) : (emit e s).sm = s.sm := rfl
@[simp] theorem emit_tx (e : Effect) (s : State) : (emit e s).tx = s.tx := rfl
@[simp] theorem emit_rx (e : Effect) (s : State) : (emit e s).rx = s.rx := rfl
@[simp] theorem emit_effects (e : Effect) (s : State) : (emit e s).effects = s.effects ++ [e] := rfl
@[simp] theorem emit_result (e : Effect) (s : State) : (emit e s).result = s.result := rfl
@[simp] theorem emit_env (e : Effect) (s : State) : (emit e s).env = s.env := rfl

@[simp] theorem driveCs_cfg (v : Bool) (s : State) : (driveCs v s).cfg = s.cfg := rfl
@[simp] theorem driveCs_drv (v : Bool) (s : State) : (driveCs v s).drv = { s.drv with cs := v } := rfl
@[simp] theorem driveCs_sm (v : Bool) (s : State) : (driveCs v s).sm = s.sm := rfl
@[simp] theorem driveCs_tx (v : Bool) (s : State) : (driveCs v s).tx = s.tx := rfl
@[simp] theorem driveCs_rx (v : Bool) (s : State) : (driveCs v s).rx = s.rx := rfl
@[simp] theorem driveCs_effects (v : Bool) (s : State) : (driveCs v s).effects = s.effects ++ [.cs v] := rfl
@[simp] theorem driveCs_result (v : Bool) (s : State) : (driveCs v s).result = s.result := rfl
@[simp] theorem driveCs_env (v : Bool) (s : State) : (driveCs v s).env = s.env := rfl

@[simp] theorem driveIntEn_cfg (v : Bool) (s : State) : (driveIntEn v s).cfg = s.cfg := rfl
@[simp] theorem driveIntEn_drv (v : Bool) (s : State) : (driveIntEn v s).drv = { s.drv with intEn := v } := rfl
@[simp] theorem driveIntEn_sm (v : Bool) (s : State) : (driveIntEn v s).sm = s.sm := rfl
@[simp] theorem driveIntEn_tx (v : Bool) (s : State) : (driveIntEn v s).tx = s.tx := rfl
@[simp] theorem driveIntEn_rx (v : Bool) (s : State) : (driveIntEn v s).rx = s.rx := rfl
@[simp] theorem driveIntEn_effects (v : Bool) (s : State) : (driveIntEn v s).effects = s.effects ++ [.intEn v] := rfl
@[simp] theorem driveIntEn_result (v : Bool) (s : State) : (driveIntEn v s).result = s.result := rfl
@[simp] theorem driveIntEn_env (v : Bool) (s : State) : (driveIntEn v s).env = s.env := rfl

@[simp] theorem driveChipEn_cfg (v : Bool) (s : State) : (driveChipEn v s).cfg = s.cfg := rfl
@[simp] theorem driveChipEn_drv (v : Bool) (s : State) : (driveChipEn v s).drv = { s.drv with chipEn := v } := rfl
@[simp] theorem driveChipEn_sm (v : Bool) (s : State) : (driveChipEn v s).sm = s.sm := rfl
@[simp] theorem driveChipEn_tx (v : Bool) (s : State) : (driveChipEn v s).tx = s.tx := rfl
@[simp] theorem driveChipEn_rx (v : Bool) (s : State) : (driveChipEn v s).rx = s.rx := rfl
@[simp] theorem driveChipEn_effects (v : Bool) (s : State) : (driveChipEn v s).effects = s.effects ++ [.chipEn v] := rfl
@[simp] theorem driveChipEn_result (v : Bool) (s : State) : (driveChipEn v s).result = s.result := rfl
@[simp] theorem driveChipEn_env (v : Bool) (s : State) : (driveChipEn v s).env = s.env := rfl

@[simp] theorem setState_cfg (d : DrvState) (s : State) : (setState d s).cfg = s.cfg := rfl
@[simp] theorem setState_drv (d : DrvState) (s : State) : (setState d s).drv = { s.drv with state := d } := rfl
@[simp] theorem setState_sm (d : DrvState) (s : State) : (setState d s).sm = s.sm := rfl
@[simp] theorem setState_tx (d : DrvState) (s : State) : (setState d s).tx = s.tx := rfl
@[simp] theorem setState_rx (d : DrvState) (s : State) : (setState d s).rx = s.rx := rfl
@[simp] theorem setState_effects (d : DrvState) (s : State) : (setState d s).effects = s.effects ++ [.obsTransition s.drv.state d] := rfl
@[simp] theorem setState_result (d : DrvState) (s : State) : (setState d s).result = s.result := rfl
@[simp] theorem setState_env (d : DrvState) (s : State) : (setState d s).env = s.env := rfl

@[simp] theorem requestXfer_cfg (k : XferKind) (n : Nat) (s : State) : (requestXfer k n s).cfg = s.cfg := rfl
@[simp] theorem requestXfer_drv (k : XferKind) (n : Nat) (s : State) : (requestXfer k n s).drv = { s.drv with xfer := some ⟨k, n⟩ } := rfl
@[simp] theorem requestXfer_sm (k : XferKind) (n : Nat) (s : State) : (requestXfer k n s).sm = s.sm := rfl
@[simp] theorem requestXfer_tx (k : XferKind) (n : Nat) (s : State) : (requestXfer k n s).tx = s.tx := rfl
@[simp] theorem requestXfer_rx (k : XferKind) (n : Nat) (s : State) : (requestXfer k n s).rx = s.rx := rfl
@[simp] theorem requestXfer_effects (k : XferKind) (n : Nat) (s : State) : (requestXfer k n s).effects = s.effects ++ [.xfer k n] := rfl
@[simp] theorem requestXfer_result (k : XferKind) (n : Nat) (s : State) : (requestXfer k n s).result = s.result := rfl
@[simp] theorem requestXfer_env (k : XferKind) (n : Nat) (s : State) : (requestXfer k n s).env = s.env := rfl

@[simp] theorem sendOnWire_cfg (n : Nat) (s : State) : (sendOnWire n s).cfg = s.cfg := rfl
@[simp] theorem sendOnWire_drv (n : Nat) (s : State) : (sendOnWire n s).drv = s.drv := rfl
@[simp] theorem sendOnWire_sm (n : Nat) (s : State) : (sendOnWire n s).sm = s.sm := rfl
@[simp] theorem sendOnWire_tx (n : Nat) (s : State) : (sendOnWire n s).tx = s.tx := rfl
@[simp] theorem sendOnWire_rx (n : Nat) (s : State) : (sendOnWire n s).rx = s.rx := rfl
@[simp] theorem sendOnWire_effects (n : Nat) (s : State) : (sendOnWire n s).effects = s.effects := rfl
@[simp] theorem sendOnWire_result (n : Nat) (s : State) : (sendOnWire n s).result = s.result := rfl
@[simp] theorem sendOnWire_env (n : Nat) (s : State) : (sendOnWire n s).env = { s.env with wireOut := s.env.wireOut ++ [readTx 0 n s] } := rfl

@[simp] theorem closeXfer_cfg (s : State) : (closeXfer s).cfg = s.cfg := rfl
@[simp] theorem closeXfer_drv (s : State) : (closeXfer s).drv = { s.drv with xfer := none, statSpiCompletions := s.drv.statSpiCompletions + 1 } := rfl
@[simp] theorem closeXfer_sm (s : State) : (closeXfer s).sm = s.sm := rfl
@[simp] theorem closeXfer_tx (s : State) : (closeXfer s).tx = s.tx := rfl
@[simp] theorem closeXfer_rx (s : State) : (closeXfer s).rx = s.rx := rfl
@[simp] theorem closeXfer_effects (s : State) : (closeXfer s).effects = s.effects := rfl
@[simp] theorem closeXfer_result (s : State) : (closeXfer s).result = s.result := rfl
@[simp] theorem closeXfer_env (s : State) : (closeXfer s).env = s.env := rfl

@[simp] theorem countBytesTx_cfg (n : Nat) (s : State) : (countBytesTx n s).cfg = s.cfg := rfl
@[simp] theorem countBytesTx_drv (n : Nat) (s : State) : (countBytesTx n s).drv = { s.drv with statBytesTx := s.drv.statBytesTx + n } := rfl
@[simp] theorem countBytesTx_sm (n : Nat) (s : State) : (countBytesTx n s).sm = s.sm := rfl
@[simp] theorem countBytesTx_tx (n : Nat) (s : State) : (countBytesTx n s).tx = s.tx := rfl
@[simp] theorem countBytesTx_rx (n : Nat) (s : State) : (countBytesTx n s).rx = s.rx := rfl
@[simp] theorem countBytesTx_effects (n : Nat) (s : State) : (countBytesTx n s).effects = s.effects := rfl
@[simp] theorem countBytesTx_result (n : Nat) (s : State) : (countBytesTx n s).result = s.result := rfl
@[simp] theorem countBytesTx_env (n : Nat) (s : State) : (countBytesTx n s).env = s.env := rfl

@[simp] theorem countBytesRx_cfg (n : Nat) (s : State) : (countBytesRx n s).cfg = s.cfg := rfl
@[simp] theorem countBytesRx_drv (n : Nat) (s : State) : (countBytesRx n s).drv = { s.drv with statBytesRx := s.drv.statBytesRx + n } := rfl
@[simp] theorem countBytesRx_sm (n : Nat) (s : State) : (countBytesRx n s).sm = s.sm := rfl
@[simp] theorem countBytesRx_tx (n : Nat) (s : State) : (countBytesRx n s).tx = s.tx := rfl
@[simp] theorem countBytesRx_rx (n : Nat) (s : State) : (countBytesRx n s).rx = s.rx := rfl
@[simp] theorem countBytesRx_effects (n : Nat) (s : State) : (countBytesRx n s).effects = s.effects := rfl
@[simp] theorem countBytesRx_result (n : Nat) (s : State) : (countBytesRx n s).result = s.result := rfl
@[simp] theorem countBytesRx_env (n : Nat) (s : State) : (countBytesRx n s).env = s.env := rfl

@[simp] theorem recordCommand_cfg (o : Opcode) (s : State) : (recordCommand o s).cfg = s.cfg := rfl
@[simp] theorem recordCommand_drv (o : Opcode) (s : State) : (recordCommand o s).drv = { s.drv with pendingCommand := some o, statCommands := s.drv.statCommands + 1 } := rfl
@[simp] theorem recordCommand_sm (o : Opcode) (s : State) : (recordCommand o s).sm = s.sm := rfl
@[simp] theorem recordCommand_tx (o : Opcode) (s : State) : (recordCommand o s).tx = s.tx := rfl
@[simp] theorem recordCommand_rx (o : Opcode) (s : State) : (recordCommand o s).rx = s.rx := rfl
@[simp] theorem recordCommand_effects (o : Opcode) (s : State) : (recordCommand o s).effects = s.effects ++ [.obsCommand o] := rfl
@[simp] theorem recordCommand_result (o : Opcode) (s : State) : (recordCommand o s).result = s.result := rfl
@[simp] theorem recordCommand_env (o : Opcode) (s : State) : (recordCommand o s).env = s.env := rfl

@[simp] theorem writeTx_cfg (a : Nat) (l : List Byte) (s : State) : (writeTx a l s).cfg = s.cfg := rfl
@[simp] theorem writeTx_drv (a : Nat) (l : List Byte) (s : State) : (writeTx a l s).drv = s.drv := rfl
@[simp] theorem writeTx_sm (a : Nat) (l : List Byte) (s : State) : (writeTx a l s).sm = s.sm := rfl
@[simp] theorem writeTx_tx (a : Nat) (l : List Byte) (s : State) : (writeTx a l s).tx = bufWriteBytes s.cfg.bufSize s.tx a l := rfl
@[simp] theorem writeTx_rx (a : Nat) (l : List Byte) (s : State) : (writeTx a l s).rx = s.rx := rfl
@[simp] theorem writeTx_effects (a : Nat) (l : List Byte) (s : State) : (writeTx a l s).effects = s.effects := rfl
@[simp] theorem writeTx_result (a : Nat) (l : List Byte) (s : State) : (writeTx a l s).result = s.result := rfl
@[simp] theorem writeTx_env (a : Nat) (l : List Byte) (s : State) : (writeTx a l s).env = s.env := rfl

@[simp] theorem writeRx_cfg (a : Nat) (l : List Byte) (s : State) : (writeRx a l s).cfg = s.cfg := rfl
@[simp] theorem writeRx_drv (a : Nat) (l : List Byte) (s : State) : (writeRx a l s).drv = s.drv := rfl
@[simp] theorem writeRx_sm (a : Nat) (l : List Byte) (s : State) : (writeRx a l s).sm = s.sm := rfl
@[simp] theorem writeRx_tx (a : Nat) (l : List Byte) (s : State) : (writeRx a l s).tx = s.tx := rfl
@[simp] theorem writeRx_rx (a : Nat) (l : List Byte) (s : State) : (writeRx a l s).rx = bufWriteBytes s.cfg.bufSize s.rx a l := rfl
@[simp] theorem writeRx_effects (a : Nat) (l : List Byte) (s : State) : (writeRx a l s).effects = s.effects := rfl
@[simp] theorem writeRx_result (a : Nat) (l : List Byte) (s : State) : (writeRx a l s).result = s.result := rfl
@[simp] theorem writeRx_env (a : Nat) (l : List Byte) (s : State) : (writeRx a l s).env = s.env := rfl

@[simp] theorem setTransmitLength_cfg (n : Nat) (s : State) : (setTransmitLength n s).cfg = s.cfg := rfl
@[simp] theorem setTransmitLength_drv (n : Nat) (s : State) : (setTransmitLength n s).drv = { s.drv with transmitLength := heldLength n } := rfl
@[simp] theorem setTransmitLength_sm (n : Nat) (s : State) : (setTransmitLength n s).sm = s.sm := rfl
@[simp] theorem setTransmitLength_tx (n : Nat) (s : State) : (setTransmitLength n s).tx = s.tx := rfl
@[simp] theorem setTransmitLength_rx (n : Nat) (s : State) : (setTransmitLength n s).rx = s.rx := rfl
@[simp] theorem setTransmitLength_effects (n : Nat) (s : State) : (setTransmitLength n s).effects = s.effects := rfl
@[simp] theorem setTransmitLength_result (n : Nat) (s : State) : (setTransmitLength n s).result = s.result := rfl
@[simp] theorem setTransmitLength_env (n : Nat) (s : State) : (setTransmitLength n s).env = s.env := rfl

@[simp] theorem drawSlot_cfg (s : State) : (drawSlot s).cfg = s.cfg := rfl
@[simp] theorem drawSlot_drv (s : State) : (drawSlot s).drv = s.drv := rfl
@[simp] theorem drawSlot_sm (s : State) : (drawSlot s).sm = s.sm := rfl
@[simp] theorem drawSlot_tx (s : State) : (drawSlot s).tx = s.tx := rfl
@[simp] theorem drawSlot_rx (s : State) : (drawSlot s).rx = s.rx := rfl
@[simp] theorem drawSlot_effects (s : State) : (drawSlot s).effects = s.effects := rfl
@[simp] theorem drawSlot_result (s : State) : (drawSlot s).result = s.result := rfl
@[simp] theorem drawSlot_env (s : State) : (drawSlot s).env = { s.env with slotDraws := s.env.slotDraws + 1 } := rfl

@[simp] theorem updateSocket_cfg (i : Nat) (f : Socket → Socket) (s : State) : (updateSocket i f s).cfg = s.cfg := rfl
@[simp] theorem updateSocket_drv (i : Nat) (f : Socket → Socket) (s : State) : (updateSocket i f s).drv = s.drv := rfl
@[simp] theorem updateSocket_sm (i : Nat) (f : Socket → Socket) (s : State) : (updateSocket i f s).sm = { s.sm with table := s.sm.table.modify i f } := rfl
@[simp] theorem updateSocket_tx (i : Nat) (f : Socket → Socket) (s : State) : (updateSocket i f s).tx = s.tx := rfl
@[simp] theorem updateSocket_rx (i : Nat) (f : Socket → Socket) (s : State) : (updateSocket i f s).rx = s.rx := rfl
@[simp] theorem updateSocket_effects (i : Nat) (f : Socket → Socket) (s : State) : (updateSocket i f s).effects = s.effects := rfl
@[simp] theorem updateSocket_result (i : Nat) (f : Socket → Socket) (s : State) : (updateSocket i f s).result = s.result := rfl
@[simp] theorem updateSocket_env (i : Nat) (f : Socket → Socket) (s : State) : (updateSocket i f s).env = s.env := rfl

@[simp] theorem setSockState_cfg (i : Nat) (t : SockState) (s : State) : (setSockState i t s).cfg = s.cfg := rfl
@[simp] theorem setSockState_drv (i : Nat) (t : SockState) (s : State) : (setSockState i t s).drv = s.drv := rfl
@[simp] theorem setSockState_sm (i : Nat) (t : SockState) (s : State) : (setSockState i t s).sm = { s.sm with table := s.sm.table.modify i (fun k => { k with state := t }) } := rfl
@[simp] theorem setSockState_tx (i : Nat) (t : SockState) (s : State) : (setSockState i t s).tx = s.tx := rfl
@[simp] theorem setSockState_rx (i : Nat) (t : SockState) (s : State) : (setSockState i t s).rx = s.rx := rfl
@[simp] theorem setSockState_effects (i : Nat) (t : SockState) (s : State) : (setSockState i t s).effects = s.effects := rfl
@[simp] theorem setSockState_result (i : Nat) (t : SockState) (s : State) : (setSockState i t s).result = s.result := rfl
@[simp] theorem setSockState_env (i : Nat) (t : SockState) (s : State) : (setSockState i t s).env = s.env := rfl

@[simp] theorem setReadable_cfg (i : Nat) (v : Bool) (s : State) : (setReadable i v s).cfg = s.cfg := rfl
@[simp] theorem setReadable_drv (i : Nat) (v : Bool) (s : State) : (setReadable i v s).drv = s.drv := rfl
@[simp] theorem setReadable_sm (i : Nat) (v : Bool) (s : State) : (setReadable i v s).sm = { s.sm with table := s.sm.table.modify i (fun k => { k with readable := v }) } := rfl
@[simp] theorem setReadable_tx (i : Nat) (v : Bool) (s : State) : (setReadable i v s).tx = s.tx := rfl
@[simp] theorem setReadable_rx (i : Nat) (v : Bool) (s : State) : (setReadable i v s).rx = s.rx := rfl
@[simp] theorem setReadable_effects (i : Nat) (v : Bool) (s : State) : (setReadable i v s).effects = s.effects := rfl
@[simp] theorem setReadable_result (i : Nat) (v : Bool) (s : State) : (setReadable i v s).result = s.result := rfl
@[simp] theorem setReadable_env (i : Nat) (v : Bool) (s : State) : (setReadable i v s).env = s.env := rfl

@[simp] theorem setCurrent_cfg (c : Option Slot) (s : State) : (setCurrent c s).cfg = s.cfg := rfl
@[simp] theorem setCurrent_drv (c : Option Slot) (s : State) : (setCurrent c s).drv = s.drv := rfl
@[simp] theorem setCurrent_sm (c : Option Slot) (s : State) : (setCurrent c s).sm = { s.sm with current := c } := rfl
@[simp] theorem setCurrent_tx (c : Option Slot) (s : State) : (setCurrent c s).tx = s.tx := rfl
@[simp] theorem setCurrent_rx (c : Option Slot) (s : State) : (setCurrent c s).rx = s.rx := rfl
@[simp] theorem setCurrent_effects (c : Option Slot) (s : State) : (setCurrent c s).effects = s.effects := rfl
@[simp] theorem setCurrent_result (c : Option Slot) (s : State) : (setCurrent c s).result = s.result := rfl
@[simp] theorem setCurrent_env (c : Option Slot) (s : State) : (setCurrent c s).env = s.env := rfl

@[simp] theorem setSelectPending_cfg (v : Bool) (s : State) : (setSelectPending v s).cfg = s.cfg := rfl
@[simp] theorem setSelectPending_drv (v : Bool) (s : State) : (setSelectPending v s).drv = s.drv := rfl
@[simp] theorem setSelectPending_sm (v : Bool) (s : State) : (setSelectPending v s).sm = { s.sm with selectPending := v } := rfl
@[simp] theorem setSelectPending_tx (v : Bool) (s : State) : (setSelectPending v s).tx = s.tx := rfl
@[simp] theorem setSelectPending_rx (v : Bool) (s : State) : (setSelectPending v s).rx = s.rx := rfl
@[simp] theorem setSelectPending_effects (v : Bool) (s : State) : (setSelectPending v s).effects = s.effects := rfl
@[simp] theorem setSelectPending_result (v : Bool) (s : State) : (setSelectPending v s).result = s.result := rfl
@[simp] theorem setSelectPending_env (v : Bool) (s : State) : (setSelectPending v s).env = s.env := rfl

@[simp] theorem setInterruptPending_cfg (v : Bool) (s : State) : (setInterruptPending v s).cfg = s.cfg := rfl
@[simp] theorem setInterruptPending_drv (v : Bool) (s : State) : (setInterruptPending v s).drv = { s.drv with interruptPending := v } := rfl
@[simp] theorem setInterruptPending_sm (v : Bool) (s : State) : (setInterruptPending v s).sm = s.sm := rfl
@[simp] theorem setInterruptPending_tx (v : Bool) (s : State) : (setInterruptPending v s).tx = s.tx := rfl
@[simp] theorem setInterruptPending_rx (v : Bool) (s : State) : (setInterruptPending v s).rx = s.rx := rfl
@[simp] theorem setInterruptPending_effects (v : Bool) (s : State) : (setInterruptPending v s).effects = s.effects := rfl
@[simp] theorem setInterruptPending_result (v : Bool) (s : State) : (setInterruptPending v s).result = s.result := rfl
@[simp] theorem setInterruptPending_env (v : Bool) (s : State) : (setInterruptPending v s).env = s.env := rfl

@[simp] theorem recordIpConfig_cfg (v : List Byte) (s : State) : (recordIpConfig v s).cfg = s.cfg := rfl
@[simp] theorem recordIpConfig_drv (v : List Byte) (s : State) : (recordIpConfig v s).drv = { s.drv with ipConfig := v, dhcpComplete := true } := rfl
@[simp] theorem recordIpConfig_sm (v : List Byte) (s : State) : (recordIpConfig v s).sm = s.sm := rfl
@[simp] theorem recordIpConfig_tx (v : List Byte) (s : State) : (recordIpConfig v s).tx = s.tx := rfl
@[simp] theorem recordIpConfig_rx (v : List Byte) (s : State) : (recordIpConfig v s).rx = s.rx := rfl
@[simp] theorem recordIpConfig_effects (v : List Byte) (s : State) : (recordIpConfig v s).effects = s.effects := rfl
@[simp] theorem recordIpConfig_result (v : List Byte) (s : State) : (recordIpConfig v s).result = s.result := rfl
@[simp] theorem recordIpConfig_env (v : List Byte) (s : State) : (recordIpConfig v s).env = s.env := rfl

@[simp] theorem recordWlanStatus_cfg (v : Word32) (s : State) : (recordWlanStatus v s).cfg = s.cfg := rfl
@[simp] theorem recordWlanStatus_drv (v : Word32) (s : State) : (recordWlanStatus v s).drv = { s.drv with wlanStatus := v } := rfl
@[simp] theorem recordWlanStatus_sm (v : Word32) (s : State) : (recordWlanStatus v s).sm = s.sm := rfl
@[simp] theorem recordWlanStatus_tx (v : Word32) (s : State) : (recordWlanStatus v s).tx = s.tx := rfl
@[simp] theorem recordWlanStatus_rx (v : Word32) (s : State) : (recordWlanStatus v s).rx = s.rx := rfl
@[simp] theorem recordWlanStatus_effects (v : Word32) (s : State) : (recordWlanStatus v s).effects = s.effects := rfl
@[simp] theorem recordWlanStatus_result (v : Word32) (s : State) : (recordWlanStatus v s).result = s.result := rfl
@[simp] theorem recordWlanStatus_env (v : Word32) (s : State) : (recordWlanStatus v s).env = s.env := rfl

@[simp] theorem countUnsolicited_cfg (s : State) : (countUnsolicited s).cfg = s.cfg := rfl
@[simp] theorem countUnsolicited_drv (s : State) : (countUnsolicited s).drv = { s.drv with statUnsolicited := s.drv.statUnsolicited + 1 } := rfl
@[simp] theorem countUnsolicited_sm (s : State) : (countUnsolicited s).sm = s.sm := rfl
@[simp] theorem countUnsolicited_tx (s : State) : (countUnsolicited s).tx = s.tx := rfl
@[simp] theorem countUnsolicited_rx (s : State) : (countUnsolicited s).rx = s.rx := rfl
@[simp] theorem countUnsolicited_effects (s : State) : (countUnsolicited s).effects = s.effects := rfl
@[simp] theorem countUnsolicited_result (s : State) : (countUnsolicited s).result = s.result := rfl
@[simp] theorem countUnsolicited_env (s : State) : (countUnsolicited s).env = s.env := rfl

@[simp] theorem reportEvent_cfg (o : Opcode) (l : List Byte) (n : Nat) (s : State) : (reportEvent o l n s).cfg = s.cfg := rfl
@[simp] theorem reportEvent_drv (o : Opcode) (l : List Byte) (n : Nat) (s : State) : (reportEvent o l n s).drv = { s.drv with statEvents := s.drv.statEvents + 1 } := rfl
@[simp] theorem reportEvent_sm (o : Opcode) (l : List Byte) (n : Nat) (s : State) : (reportEvent o l n s).sm = s.sm := rfl
@[simp] theorem reportEvent_tx (o : Opcode) (l : List Byte) (n : Nat) (s : State) : (reportEvent o l n s).tx = s.tx := rfl
@[simp] theorem reportEvent_rx (o : Opcode) (l : List Byte) (n : Nat) (s : State) : (reportEvent o l n s).rx = s.rx := rfl
@[simp] theorem reportEvent_effects (o : Opcode) (l : List Byte) (n : Nat) (s : State) : (reportEvent o l n s).effects = s.effects ++ [.obsEvent o l n] := rfl
@[simp] theorem reportEvent_result (o : Opcode) (l : List Byte) (n : Nat) (s : State) : (reportEvent o l n s).result = s.result := rfl
@[simp] theorem reportEvent_env (o : Opcode) (l : List Byte) (n : Nat) (s : State) : (reportEvent o l n s).env = s.env := rfl

@[simp] theorem clearPending_cfg (s : State) : (clearPending s).cfg = s.cfg := rfl
@[simp] theorem clearPending_drv (s : State) : (clearPending s).drv = { s.drv with pendingCommand := none, state := .idle } := rfl
@[simp] theorem clearPending_sm (s : State) : (clearPending s).sm = { s.sm with current := none } := rfl
@[simp] theorem clearPending_tx (s : State) : (clearPending s).tx = s.tx := rfl
@[simp] theorem clearPending_rx (s : State) : (clearPending s).rx = s.rx := rfl
@[simp] theorem clearPending_effects (s : State) : (clearPending s).effects = s.effects ++ [.obsTransition s.drv.state .idle] := rfl
@[simp] theorem clearPending_result (s : State) : (clearPending s).result = s.result := rfl
@[simp] theorem clearPending_env (s : State) : (clearPending s).env = s.env := rfl

@[simp] theorem countInterrupt_cfg (s : State) : (countInterrupt s).cfg = s.cfg := rfl
@[simp] theorem countInterrupt_drv (s : State) : (countInterrupt s).drv = { s.drv with statInterrupts := s.drv.statInterrupts + 1 } := rfl
@[simp] theorem countInterrupt_sm (s : State) : (countInterrupt s).sm = s.sm := rfl
@[simp] theorem countInterrupt_tx (s : State) : (countInterrupt s).tx = s.tx := rfl
@[simp] theorem countInterrupt_rx (s : State) : (countInterrupt s).rx = s.rx := rfl
@[simp] theorem countInterrupt_effects (s : State) : (countInterrupt s).effects = s.effects := rfl
@[simp] theorem countInterrupt_result (s : State) : (countInterrupt s).result = s.result := rfl
@[simp] theorem countInterrupt_env (s : State) : (countInterrupt s).env = s.env := rfl

@[simp] theorem advanceStatusTimer_cfg (dt : Word32) (s : State) : (advanceStatusTimer dt s).cfg = s.cfg := rfl
@[simp] theorem advanceStatusTimer_drv (dt : Word32) (s : State) : (advanceStatusTimer dt s).drv = { s.drv with statusTimer := saturatingAdd s.drv.statusTimer dt } := rfl
@[simp] theorem advanceStatusTimer_sm (dt : Word32) (s : State) : (advanceStatusTimer dt s).sm = s.sm := rfl
@[simp] theorem advanceStatusTimer_tx (dt : Word32) (s : State) : (advanceStatusTimer dt s).tx = s.tx := rfl
@[simp] theorem advanceStatusTimer_rx (dt : Word32) (s : State) : (advanceStatusTimer dt s).rx = s.rx := rfl
@[simp] theorem advanceStatusTimer_effects (dt : Word32) (s : State) : (advanceStatusTimer dt s).effects = s.effects := rfl
@[simp] theorem advanceStatusTimer_result (dt : Word32) (s : State) : (advanceStatusTimer dt s).result = s.result := rfl
@[simp] theorem advanceStatusTimer_env (dt : Word32) (s : State) : (advanceStatusTimer dt s).env = s.env := rfl

@[simp] theorem irqUnhandled_cfg (s : State) : (irqUnhandled s).cfg = s.cfg := rfl
@[simp] theorem irqUnhandled_drv (s : State) : (irqUnhandled s).drv = { s.drv with statUnhandledInterrupts := s.drv.statUnhandledInterrupts + 1, unhandledState := some s.drv.state, interruptPending := true } := rfl
@[simp] theorem irqUnhandled_sm (s : State) : (irqUnhandled s).sm = s.sm := rfl
@[simp] theorem irqUnhandled_tx (s : State) : (irqUnhandled s).tx = s.tx := rfl
@[simp] theorem irqUnhandled_rx (s : State) : (irqUnhandled s).rx = s.rx := rfl
@[simp] theorem irqUnhandled_effects (s : State) : (irqUnhandled s).effects = s.effects := rfl
@[simp] theorem irqUnhandled_result (s : State) : (irqUnhandled s).result = s.result := rfl
@[simp] theorem irqUnhandled_env (s : State) : (irqUnhandled s).env = s.env := rfl

@[simp] theorem raise_cfg (e : OpError) (s : State) : (raise e s).cfg = s.cfg := rfl
@[simp] theorem raise_drv (e : OpError) (s : State) : (raise e s).drv = s.drv := rfl
@[simp] theorem raise_sm (e : OpError) (s : State) : (raise e s).sm = s.sm := rfl
@[simp] theorem raise_tx (e : OpError) (s : State) : (raise e s).tx = s.tx := rfl
@[simp] theorem raise_rx (e : OpError) (s : State) : (raise e s).rx = s.rx := rfl
@[simp] theorem raise_effects (e : OpError) (s : State) : (raise e s).effects = s.effects := rfl
@[simp] theorem raise_result (e : OpError) (s : State) : (raise e s).result = .raised e := rfl
@[simp] theorem raise_env (e : OpError) (s : State) : (raise e s).env = s.env := rfl

@[simp] theorem finish_cfg (r : OpResult) (s : State) : (finish r s).cfg = s.cfg := rfl
@[simp] theorem finish_drv (r : OpResult) (s : State) : (finish r s).drv = s.drv := rfl
@[simp] theorem finish_sm (r : OpResult) (s : State) : (finish r s).sm = s.sm := rfl
@[simp] theorem finish_tx (r : OpResult) (s : State) : (finish r s).tx = s.tx := rfl
@[simp] theorem finish_rx (r : OpResult) (s : State) : (finish r s).rx = s.rx := rfl
@[simp] theorem finish_effects (r : OpResult) (s : State) : (finish r s).effects = s.effects := rfl
@[simp] theorem finish_result (r : OpResult) (s : State) : (finish r s).result = r := rfl
@[simp] theorem finish_env (r : OpResult) (s : State) : (finish r s).env = s.env := rfl

@[simp] theorem dropStimulus_cfg (l : List Stimulus) (s : State) : (dropStimulus l s).cfg = s.cfg := rfl
@[simp] theorem dropStimulus_drv (l : List Stimulus) (s : State) : (dropStimulus l s).drv = s.drv := rfl
@[simp] theorem dropStimulus_sm (l : List Stimulus) (s : State) : (dropStimulus l s).sm = s.sm := rfl
@[simp] theorem dropStimulus_tx (l : List Stimulus) (s : State) : (dropStimulus l s).tx = s.tx := rfl
@[simp] theorem dropStimulus_rx (l : List Stimulus) (s : State) : (dropStimulus l s).rx = s.rx := rfl
@[simp] theorem dropStimulus_effects (l : List Stimulus) (s : State) : (dropStimulus l s).effects = s.effects := rfl
@[simp] theorem dropStimulus_result (l : List Stimulus) (s : State) : (dropStimulus l s).result = s.result := rfl
@[simp] theorem dropStimulus_env (l : List Stimulus) (s : State) : (dropStimulus l s).env = { s.env with schedule := l } := rfl

@[simp] theorem releaseEdge_cfg (s : State) : (releaseEdge s).cfg = s.cfg := rfl
@[simp] theorem releaseEdge_drv (s : State) : (releaseEdge s).drv = s.drv := rfl
@[simp] theorem releaseEdge_sm (s : State) : (releaseEdge s).sm = s.sm := rfl
@[simp] theorem releaseEdge_tx (s : State) : (releaseEdge s).tx = s.tx := rfl
@[simp] theorem releaseEdge_rx (s : State) : (releaseEdge s).rx = s.rx := rfl
@[simp] theorem releaseEdge_effects (s : State) : (releaseEdge s).effects = s.effects := rfl
@[simp] theorem releaseEdge_result (s : State) : (releaseEdge s).result = s.result := rfl
@[simp] theorem releaseEdge_env (s : State) : (releaseEdge s).env = { s.env with heldEdge := false } := rfl

@[simp] theorem maskEdge_cfg (s : State) : (maskEdge s).cfg = s.cfg := rfl
@[simp] theorem maskEdge_drv (s : State) : (maskEdge s).drv = s.drv := rfl
@[simp] theorem maskEdge_sm (s : State) : (maskEdge s).sm = s.sm := rfl
@[simp] theorem maskEdge_tx (s : State) : (maskEdge s).tx = s.tx := rfl
@[simp] theorem maskEdge_rx (s : State) : (maskEdge s).rx = s.rx := rfl
@[simp] theorem maskEdge_effects (s : State) : (maskEdge s).effects = s.effects := rfl
@[simp] theorem maskEdge_result (s : State) : (maskEdge s).result = s.result := rfl
@[simp] theorem maskEdge_env (s : State) : (maskEdge s).env = { s.env with heldEdge := s.env.heldEdge || s.cfg.irqHeldWhileMasked } := rfl

@[simp] theorem beginLine_cfg (irq : List Level) (l : List Stimulus) (s : State) : (beginLine irq l s).cfg = s.cfg := rfl
@[simp] theorem beginLine_drv (irq : List Level) (l : List Stimulus) (s : State) : (beginLine irq l s).drv = s.drv := rfl
@[simp] theorem beginLine_sm (irq : List Level) (l : List Stimulus) (s : State) : (beginLine irq l s).sm = s.sm := rfl
@[simp] theorem beginLine_tx (irq : List Level) (l : List Stimulus) (s : State) : (beginLine irq l s).tx = s.tx := rfl
@[simp] theorem beginLine_rx (irq : List Level) (l : List Stimulus) (s : State) : (beginLine irq l s).rx = s.rx := rfl
@[simp] theorem beginLine_effects (irq : List Level) (l : List Stimulus) (s : State) : (beginLine irq l s).effects = s.effects := rfl
@[simp] theorem beginLine_result (irq : List Level) (l : List Stimulus) (s : State) : (beginLine irq l s).result = s.result := rfl
@[simp] theorem beginLine_env (irq : List Level) (l : List Stimulus) (s : State) : (beginLine irq l s).env = { s.env.supply irq with schedule := l } := rfl

@[simp] theorem readIrqLevel_cfg (s : State) : (readIrqLevel s).2.cfg = s.cfg := rfl
@[simp] theorem readIrqLevel_drv (s : State) : (readIrqLevel s).2.drv = s.drv := rfl
@[simp] theorem readIrqLevel_sm (s : State) : (readIrqLevel s).2.sm = s.sm := rfl
@[simp] theorem readIrqLevel_tx (s : State) : (readIrqLevel s).2.tx = s.tx := rfl
@[simp] theorem readIrqLevel_rx (s : State) : (readIrqLevel s).2.rx = s.rx := rfl
@[simp] theorem readIrqLevel_effects (s : State) : (readIrqLevel s).2.effects = s.effects ++ [.irqLevel s.env.level] := rfl
@[simp] theorem readIrqLevel_result (s : State) : (readIrqLevel s).2.result = s.result := rfl
@[simp] theorem readIrqLevel_env (s : State) : (readIrqLevel s).2.env = s.env.afterRead := rfl
@[simp] theorem readIrqLevel_level (s : State) : (readIrqLevel s).1 = s.env.level := rfl

end Sys2Proof.Machine
end

