-- ==== Sys2Proof/Laws/Framer.lean ====
section
/-! SUPPORT. Once for each framer operation, everything it can do (R100 to R106): the buffer it leaves, read byte by
byte, and every other register. -/

namespace Sys2Proof.Machine

/-! ### Bytes of a 16-bit value -/

theorem hi8_ofNat (n : Nat) : hi8 (BitVec.ofNat 16 n) = BitVec.ofNat 8 (n / 256) := by
  apply BitVec.eq_of_toNat_eq
  simp [hi8, Nat.shiftRight_eq_div_pow]
  omega

theorem lo8_ofNat (n : Nat) : lo8 (BitVec.ofNat 16 n) = BitVec.ofNat 8 n := by
  apply BitVec.eq_of_toNat_eq
  simp [lo8]

theorem hi8_eq (v : BitVec 16) : hi8 v = BitVec.ofNat 8 (v.toNat / 256) := by
  conv_lhs => rw [show v = BitVec.ofNat 16 v.toNat by simp]
  exact hi8_ofNat _

theorem lo8_eq (v : BitVec 16) : lo8 v = BitVec.ofNat 8 v.toNat := by
  conv_lhs => rw [show v = BitVec.ofNat 16 v.toNat by simp]
  exact lo8_ofNat _

theorem toNat_be16 (b0 b1 : Byte) : (be16 b0 b1).toNat = 256 * b0.toNat + b1.toNat := by
  have h1 := b1.isLt
  simp only [be16, BitVec.toNat_append]
  rw [← Nat.shiftLeft_add_eq_or_of_lt h1, Nat.shiftLeft_eq]
  omega

theorem toNat_le16 (b0 b1 : Byte) : (le16 b0 b1).toNat = b0.toNat + 256 * b1.toNat := by
  have h := toNat_be16 b1 b0
  have e : le16 b0 b1 = be16 b1 b0 := rfl
  rw [e, h]
  omega

/-- The opcode, split and put together again (R62). -/
theorem le16_lo8_hi8 (v : BitVec 16) : le16 (lo8 v) (hi8 v) = v := by
  apply BitVec.eq_of_toNat_eq
  have := v.isLt
  rw [toNat_le16, lo8_eq, hi8_eq]
  simp only [BitVec.toNat_ofNat]
  omega

/-- The transport length, split and put together again (R61). -/
theorem be16_hi8_lo8 (v : BitVec 16) : be16 (hi8 v) (lo8 v) = v := by
  apply BitVec.eq_of_toNat_eq
  have := v.isLt
  rw [toNat_be16, lo8_eq, hi8_eq]
  simp only [BitVec.toNat_ofNat]
  omega

/-! ### Building -/

@[simp] theorem length_transportHeaderBytes (type : Byte) (length : BitVec 16) :
    (transportHeaderBytes type length).length = 5 := rfl

@[simp] theorem length_commandPayload (tag : Byte) (opcode : Opcode) (args : List Byte) :
    (commandPayload tag opcode args).length = 4 + args.length := by
  simp [commandPayload]; omega

@[simp] theorem length_dataPayload (p : Params) (dopcode : Byte) (args data : List Byte) :
    (dataPayload p dopcode args data).length = 5 + args.length + data.length := by
  simp [dataPayload]; omega

theorem length_padding (p : Params) (n : Nat) : (padding p n).length = (5 + n) % 2 := by
  unfold padding; split <;> simp <;> omega

theorem paddedLength_eq (n : Nat) : paddedLength n = n + (5 + n) % 2 := by
  unfold paddedLength; split <;> omega

/-- A padded frame has even length (R84). -/
theorem paddedLength_even (n : Nat) : (5 + paddedLength n) % 2 = 0 := by rw [paddedLength_eq]; omega

/-- A payload written at byte 5, its padding after it and a five-byte header at byte 0 read as the three lists in a row,
as far as the buffer goes, and every other byte as before. -/
theorem memRead_frame (size : Nat) (m : Memory) (hdr pl pd : List Byte) (x : Nat) (h : hdr.length = 5) :
    memRead (bufWriteBytes size (bufWriteBytes size (bufWriteBytes size m 5 pl) (5 + pl.length) pd) 0 hdr) x =
      if x < (hdr ++ pl ++ pd).length ∧ x < size then (hdr ++ pl ++ pd).getD x unwrittenByte else memRead m x := by
  rw [memRead_bufWriteBytes, memRead_bufWriteBytes, memRead_bufWriteBytes]
  simp only [List.length_append, h, Nat.zero_le, true_and, Nat.zero_add, Nat.sub_zero, List.getD]
  by_cases hs : x < size
  swap
  · rw [if_neg (by omega), if_neg (by omega), if_neg (by omega), if_neg (by omega)]
  simp only [hs, and_true]
  by_cases h1 : x < 5
  · rw [if_pos h1, if_pos (by omega), List.append_assoc, List.getElem?_append_left (by omega)]
  · rw [if_neg h1]
    by_cases h2 : x < 5 + pl.length
    · rw [if_neg (by omega), if_pos (by omega), if_pos (by omega), List.append_assoc,
        List.getElem?_append_right (by omega), List.getElem?_append_left (by omega), h]
    · by_cases h3 : x < 5 + pl.length + pd.length
      · rw [if_pos (by omega), if_pos (by omega), List.getElem?_append_right (by simp; omega)]
        simp [h]
      · rw [if_neg (by omega), if_neg (by omega), if_neg (by omega)]

/-- What FRAME_TRANSPORT leaves (R100). -/
theorem frameTransport_eq (type : Byte) (n : Nat) (s : State) :
    frameTransport type n s =
      ({ s with
        tx := bufWriteBytes s.cfg.bufSize (bufWriteBytes s.cfg.bufSize s.tx (5 + n) (padding s.cfg n)) 0
          (transportHeaderBytes type (BitVec.ofNat 16 (paddedLength n)))
        drv := { s.drv with transmitLength := heldLength (5 + paddedLength n) } }, 5 + paddedLength n) := rfl

/-- The bytes FRAME_COMMAND puts in TX (R66, R102). -/
def commandBytes (p : Params) (opcode : Opcode) (args : List Byte) : List Byte :=
  transportHeaderBytes p.spiOpWrite (BitVec.ofNat 16 (paddedLength (4 + args.length))) ++
    commandPayload p.tagCmd opcode args ++ padding p (4 + args.length)

/-- The bytes FRAME_DATA puts in TX (R66, R103). -/
def dataBytes (p : Params) (dopcode : Byte) (args data : List Byte) : List Byte :=
  transportHeaderBytes p.spiOpWrite (BitVec.ofNat 16 (paddedLength (5 + args.length + data.length))) ++
    dataPayload p dopcode args data ++ padding p (5 + args.length + data.length)

theorem length_commandBytes (p : Params) (opcode : Opcode) (args : List Byte) :
    (commandBytes p opcode args).length = 5 + paddedLength (4 + args.length) := by
  simp [commandBytes, length_padding, paddedLength_eq]

theorem length_dataBytes (p : Params) (dopcode : Byte) (args data : List Byte) :
    (dataBytes p dopcode args data).length = 5 + paddedLength (5 + args.length + data.length) := by
  simp [dataBytes, length_padding, paddedLength_eq]

/-- Everything FRAME_COMMAND can do (R102): refuse, or leave the frame in TX and its length in `transmit_length`. -/
theorem frameCommand_cases (opcode : Opcode) (args : List Byte) (s : State) :
    ((args.length > 255 ∨ 5 + (4 + args.length) + 1 > s.cfg.bufSize) ∧ frameCommand opcode args s = none) ∨
    (args.length ≤ 255 ∧ 5 + (4 + args.length) + 1 ≤ s.cfg.bufSize ∧ ∃ tx,
      frameCommand opcode args s =
        some ({ s with
          tx := tx
          drv := { s.drv with transmitLength := BitVec.ofNat 16 (commandBytes s.cfg opcode args).length } },
          (commandBytes s.cfg opcode args).length) ∧
      (∀ x, memRead tx x = if x < (commandBytes s.cfg opcode args).length then
        (commandBytes s.cfg opcode args).getD x unwrittenByte else memRead s.tx x) ∧
      (Memory.wf s.tx = true → Memory.wf tx = true) ∧
      (Memory.within s.cfg.bufSize s.tx = true → Memory.within s.cfg.bufSize tx = true)) := by
  unfold frameCommand
  split
  · next h => exact .inl ⟨.inl h, rfl⟩
  · next h =>
    split
    · next h2 => exact .inl ⟨.inr h2, rfl⟩
    · next h2 =>
      refine .inr ⟨by omega, by omega,
        bufWriteBytes s.cfg.bufSize (bufWriteBytes s.cfg.bufSize
          (bufWriteBytes s.cfg.bufSize s.tx 5 (commandPayload s.cfg.tagCmd opcode args))
          (5 + (4 + args.length)) (padding s.cfg (4 + args.length))) 0
          (transportHeaderBytes s.cfg.spiOpWrite (BitVec.ofNat 16 (paddedLength (4 + args.length)))),
        ?_, fun x => ?_, fun hw => ?_, fun hw => ?_⟩
      · rw [length_commandBytes, ← heldLength_of_le (by rw [paddedLength_eq]; omega)]
        rfl
      · have := memRead_frame s.cfg.bufSize s.tx (transportHeaderBytes s.cfg.spiOpWrite (BitVec.ofNat 16 (paddedLength (4 + args.length))))
          (commandPayload s.cfg.tagCmd opcode args) (padding s.cfg (4 + args.length)) x rfl
        simp only [length_commandPayload] at this
        rw [this]
        have hlen := length_commandBytes s.cfg opcode args
        rw [paddedLength_eq] at hlen
        exact if_congr ⟨And.left, fun h => ⟨h, by omega⟩⟩ rfl rfl
      · exact bufWriteBytes_wf _ _ _ _ (bufWriteBytes_wf _ _ _ _ (bufWriteBytes_wf _ _ _ _ hw))
      · exact bufWriteBytes_within _ _ _ _ (bufWriteBytes_within _ _ _ _ (bufWriteBytes_within _ _ _ _ hw))

/-- Everything FRAME_DATA can do (R103). -/
theorem frameData_cases (dopcode : Byte) (args data : List Byte) (s : State) :
    (frameDataInvalid s.cfg args data = true ∧ frameData dopcode args data s = none) ∨
    (frameDataInvalid s.cfg args data = false ∧ ∃ tx,
      frameData dopcode args data s =
        some ({ s with
          tx := tx
          drv := { s.drv with transmitLength := heldLength (dataBytes s.cfg dopcode args data).length } },
          (dataBytes s.cfg dopcode args data).length) ∧
      (∀ x, memRead tx x = if x < (dataBytes s.cfg dopcode args data).length then
        (dataBytes s.cfg dopcode args data).getD x unwrittenByte else memRead s.tx x) ∧
      (Memory.wf s.tx = true → Memory.wf tx = true) ∧
      (Memory.within s.cfg.bufSize s.tx = true → Memory.within s.cfg.bufSize tx = true)) := by
  unfold frameData
  split
  · next h => exact .inl ⟨h, rfl⟩
  · next h =>
    have hf : frameDataInvalid s.cfg args data = false := by simpa using h
    have hb : 5 + (5 + args.length + data.length) + 1 ≤ s.cfg.bufSize := by
      simp [frameDataInvalid] at hf; omega
    refine .inr ⟨hf,
      bufWriteBytes s.cfg.bufSize (bufWriteBytes s.cfg.bufSize
        (bufWriteBytes s.cfg.bufSize s.tx 5 (dataPayload s.cfg dopcode args data))
        (5 + (5 + args.length + data.length)) (padding s.cfg (5 + args.length + data.length))) 0
        (transportHeaderBytes s.cfg.spiOpWrite (BitVec.ofNat 16 (paddedLength (5 + args.length + data.length)))),
      ?_, fun x => ?_, fun hw => ?_, fun hw => ?_⟩
    · rw [length_dataBytes]
      rfl
    · have := memRead_frame s.cfg.bufSize s.tx
        (transportHeaderBytes s.cfg.spiOpWrite (BitVec.ofNat 16 (paddedLength (5 + args.length + data.length))))
        (dataPayload s.cfg dopcode args data) (padding s.cfg (5 + args.length + data.length)) x rfl
      simp only [length_dataPayload] at this
      rw [this]
      have hlen := length_dataBytes s.cfg dopcode args data
      rw [paddedLength_eq] at hlen
      exact if_congr ⟨And.left, fun h => ⟨h, by omega⟩⟩ rfl rfl
    · exact bufWriteBytes_wf _ _ _ _ (bufWriteBytes_wf _ _ _ _ (bufWriteBytes_wf _ _ _ _ hw))
    · exact bufWriteBytes_within _ _ _ _ (bufWriteBytes_within _ _ _ _ (bufWriteBytes_within _ _ _ _ hw))

/-- What FRAME_READ_HEADER leaves (R101). -/
theorem frameReadHeader_eq (s : State) :
    frameReadHeader s = { s with
      tx := bufWriteBytes s.cfg.bufSize s.tx 0 (transportHeaderBytes s.cfg.spiOpRead 0)
      drv := { s.drv with transmitLength := 5 } } := by
  simp [frameReadHeader, setTransmitLength, writeTx, heldLength]

/-! ### Parsing -/

/-- The received length by the place it stands at (R104). -/
theorem receivedLength_eq (s : State) :
    receivedLength s = match s.cfg.rxLenOffset with
      | .one => 256 * (memRead s.rx 1).toNat + (memRead s.rx 2).toNat
      | .three => 256 * (memRead s.rx 3).toNat + (memRead s.rx 4).toNat := by
  unfold receivedLength receivedHeader parseReceivedHeader
  cases s.cfg.rxLenOffset <;> simp [toNat_be16]

theorem receivedHeader_type (s : State) : (receivedHeader s).1 = memRead s.rx 0 := by
  unfold receivedHeader parseReceivedHeader
  cases s.cfg.rxLenOffset <;> rfl

theorem receivedLength_lt (s : State) : receivedLength s < 65536 := (receivedHeader s).2.1.isLt

/-- Everything R105 can read from a payload. -/
theorem parseEventPayload_cases (payload : List Byte) :
    parseEventPayload payload = none ∨
    ∃ h, parseEventPayload payload = some h ∧ 4 + h.argLen ≤ payload.length ∧ h.argLen ≤ 255 ∧
      h.args.length = h.argLen := by
  unfold parseEventPayload
  split
  · next tag lo hi k rest =>
    split
    · exact .inl rfl
    · next hk =>
      refine .inr ⟨_, rfl, ?_, ?_, ?_⟩ <;> simp <;> have := k.isLt <;> omega
  · exact .inl rfl

/-- Everything R106 can read from a payload. -/
theorem parseDataPayload_cases (p : Params) (payload : List Byte) :
    parseDataPayload p payload = none ∨
    ∃ h, parseDataPayload p payload = some h ∧ 5 + h.argLen + h.dataLen ≤ payload.length ∧
      h.dargs.length = h.argLen ∧ h.data.length = h.dataLen := by
  unfold parseDataPayload
  split
  · next tag dopcode k lo hi rest =>
    split
    · exact .inl rfl
    · generalize (if p.dataLenCountsArgs = true then (le16 lo hi).toNat - k.toNat else (le16 lo hi).toNat) = m
      dsimp only
      by_cases hm : rest.length < k.toNat + m
      · exact .inl (if_pos hm)
      · refine .inr ⟨_, if_neg hm, ?_, ?_, ?_⟩ <;> simp <;> omega
  · exact .inl rfl

theorem length_receivedPayload (s : State) : (receivedPayload s).length = receivedLength s := by
  simp [receivedPayload, length_readRx]

end Sys2Proof.Machine
end

