-- ==== Sys2Proof/Laws/Decode.lean ====
section
/-! SUPPORT. What the constraints of R7 give, what the two parsers read from a payload the framer's formats lay out (R82,
R83), and what the decoder's small parts answer. -/

namespace Sys2Proof

/-- The constraints of R7, each by its name. -/
structure Params.Sound (p : Params) : Prop where
  bufLow : 1700 ≤ p.bufSize
  bufHigh : p.bufSize ≤ 65535
  readWrite : p.spiOpRead ≠ p.spiOpWrite
  commandEvent : p.tagCmd ≠ p.tagEvent
  commandData : p.tagCmd ≠ p.tagData
  eventData : p.tagEvent ≠ p.tagData
  opcodes : (CmdName.all.map p.opcodeOf).Nodup
  solicited : ∀ c, (p.opcodeOf c).ult unsolThreshold = true
  closeWaitDhcp : p.evCloseWait ≠ p.evDhcp
  dhcp : p.evDhcp.ult unsolThreshold = false
  closeWait : p.evCloseWait.ult unsolThreshold = false
  retry : 1 ≤ p.connectRetryTimeout.toNat
  startArgs : p.startArgs.length ≤ 255

theorem Params.sound {p : Params} (h : p.wf = true) : p.Sound := by
  simp only [Params.wf, Bool.and_eq_true, decide_eq_true_eq, Bool.not_eq_true', List.all_eq_true] at h
  obtain ⟨⟨⟨⟨⟨⟨⟨⟨⟨⟨h1, h2⟩, h3⟩, h4⟩, h5⟩, h6⟩, h7⟩, h8⟩, h9⟩, h10⟩, h11⟩ := h
  simp only [List.nodup_cons, List.mem_cons, not_or] at h3 h4
  exact ⟨h1, h2, Ne.symm h3.1.1, h4.1.1, h4.1.2.1, h4.2.1.1, h5, fun c => h6 c (by cases c <;> decide), Ne.symm h7, h8,
    h9, h10, h11⟩

theorem Params.Sound.opcodeOf_inj {p : Params} (h : p.Sound) {a b : CmdName} (hab : p.opcodeOf a = p.opcodeOf b) :
    a = b :=
  List.inj_on_of_nodup_map h.opcodes (by cases a <;> decide) (by cases b <;> decide) hab

theorem Params.Sound.nameOf_opcodeOf {p : Params} (h : p.Sound) (c : CmdName) : nameOf p (p.opcodeOf c) = some c := by
  unfold nameOf
  cases hf : CmdName.all.find? (fun d => p.opcodeOf d == p.opcodeOf c) with
  | none =>
    rw [List.find?_eq_none] at hf
    have := hf c (by cases c <;> decide)
    simp at this
  | some d =>
    have := List.find?_some hf
    simp only [beq_iff_eq] at this
    rw [h.opcodeOf_inj this]

theorem nameOf_eq_none {p : Params} {opcode : Opcode} (h : p.named opcode = false) : nameOf p opcode = none := by
  unfold nameOf
  rw [List.find?_eq_none]
  intro c hc
  simp only [Params.named, List.any_eq_false] at h
  simpa using h c hc

/-- A socket-lifecycle opcode is none of the four other named ones (R7, R165). -/
theorem Machine.socketOpcode_ne {p : Params} (h : p.Sound) {opcode : Opcode}
    (hs : Machine.isSocketOpcode p opcode = true) :
    opcode ≠ p.opcBufferSize ∧ opcode ≠ p.opcStatusGet ∧ opcode ≠ p.opcStart ∧ opcode ≠ p.opcWlanConnect := by
  have key : ∀ c d : CmdName, c ≠ d → p.opcodeOf c ≠ p.opcodeOf d := fun c d hne he => hne (h.opcodeOf_inj he)
  simp only [Machine.isSocketOpcode, decide_eq_true_eq] at hs
  rcases hs with rfl | rfl | rfl | rfl | rfl | rfl | rfl | rfl
  · exact ⟨key .socket .bufferSize (by decide), key .socket .statusGet (by decide), key .socket .start (by decide),
      key .socket .wlanConnect (by decide)⟩
  · exact ⟨key .bind .bufferSize (by decide), key .bind .statusGet (by decide), key .bind .start (by decide),
      key .bind .wlanConnect (by decide)⟩
  · exact ⟨key .connect .bufferSize (by decide), key .connect .statusGet (by decide), key .connect .start (by decide),
      key .connect .wlanConnect (by decide)⟩
  · exact ⟨key .listen .bufferSize (by decide), key .listen .statusGet (by decide), key .listen .start (by decide),
      key .listen .wlanConnect (by decide)⟩
  · exact ⟨key .accept .bufferSize (by decide), key .accept .statusGet (by decide), key .accept .start (by decide),
      key .accept .wlanConnect (by decide)⟩
  · exact ⟨key .close .bufferSize (by decide), key .close .statusGet (by decide), key .close .start (by decide),
      key .close .wlanConnect (by decide)⟩
  · exact ⟨key .select .bufferSize (by decide), key .select .statusGet (by decide), key .select .start (by decide),
      key .select .wlanConnect (by decide)⟩
  · exact ⟨key .recv .bufferSize (by decide), key .recv .statusGet (by decide), key .recv .start (by decide),
      key .recv .wlanConnect (by decide)⟩

/-! ### What the parsers read from the formats -/

/-- A command or event payload parses to its fields, whatever follows the arguments (R82, R105). -/
theorem parseEventPayload_commandPayload (tag : Byte) (opcode : Opcode) (args tail : List Byte)
    (h : args.length ≤ 255) :
    parseEventPayload (commandPayload tag opcode args ++ tail) = some ⟨tag, opcode, args.length, args⟩ := by
  have hk : (BitVec.ofNat 8 args.length).toNat = args.length := by simp; omega
  simp [commandPayload, parseEventPayload, hk, Machine.le16_lo8_hi8]

/-- A data payload parses to its fields, whatever follows the data (R83, R106, D8). -/
theorem parseDataPayload_dataPayload (p : Params) (dopcode : Byte) (args data tail : List Byte)
    (ha : args.length ≤ 255) (hd : dataPlen p args.length data.length ≤ 65535) :
    parseDataPayload p (dataPayload p dopcode args data ++ tail) =
      some ⟨p.tagData, dopcode, args.length, args, data.length, data⟩ := by
  have hk : (BitVec.ofNat 8 args.length).toNat = args.length := by simp; omega
  have hl : (BitVec.ofNat 16 (dataPlen p args.length data.length)).toNat = dataPlen p args.length data.length := by
    simp; omega
  simp only [dataPayload, parseDataPayload, List.cons_append, List.nil_append, hk, Machine.le16_lo8_hi8, hl]
  unfold dataPlen
  cases p.dataLenCountsArgs <;> simp

/-! ### Numbers of a trace line -/

theorem num32_toNat (n : Word32) : num32 n.toNat = some n := by unfold num32; rw [if_pos n.isLt]; simp

theorem num16_toNat (n : Opcode) : num16 n.toNat = some n := by unfold num16; rw [if_pos n.isLt]; simp

theorem num8_toNat (n : Byte) : num8 n.toNat = some n := by unfold num8; rw [if_pos n.isLt]; simp

end Sys2Proof
end

