-- ==== Sys2Proof/Laws/Moves.lean ====
section
/-! SUPPORT. Said once: every operation is a sequence of a few kinds of change (`Moves`). What each kind keeps, every
operation keeps: a fact about all of them is one induction over `Moves`. -/

namespace Sys2Proof.Machine

/-- What no change of the driver context does: write the state (only `set_state` does, R141), move a counter down (R30,
R31), clear `dhcp_complete` (R29), disable the chip (R247). -/
structure DriverKept (a b : Driver) : Prop where
  state : b.state = a.state
  interrupts : a.statInterrupts ≤ b.statInterrupts
  spiCompletions : a.statSpiCompletions ≤ b.statSpiCompletions
  commands : a.statCommands ≤ b.statCommands
  events : a.statEvents ≤ b.statEvents
  unsolicited : a.statUnsolicited ≤ b.statUnsolicited
  bytesTx : a.statBytesTx ≤ b.statBytesTx
  bytesRx : a.statBytesRx ≤ b.statBytesRx
  unhandled : a.statUnhandledInterrupts ≤ b.statUnhandledInterrupts
  dhcp : a.dhcpComplete = true → b.dhcpComplete = true
  chip : a.chipEn = true → b.chipEn = true

/-- What no change of a socket context does: write a connection parameter (R41), move a counter down (R44). -/
structure SocketKept (k l : Socket) : Prop where
  family : l.family = k.family
  type : l.type = k.type
  protocol : l.protocol = k.protocol
  address : l.address = k.address
  count : k.rxCount ≤ l.rxCount
  bytes : k.rxBytes ≤ l.rxBytes

theorem SocketKept.refl (k : Socket) : SocketKept k k := ⟨rfl, rfl, rfl, rfl, Nat.le_refl _, Nat.le_refl _⟩

theorem SocketKept.trans {k l m : Socket} (h : SocketKept k l) (g : SocketKept l m) : SocketKept k m :=
  ⟨g.family.trans h.family, g.type.trans h.type, g.protocol.trans h.protocol, g.address.trans h.address,
    Nat.le_trans h.count g.count, Nat.le_trans h.bytes g.bytes⟩

/-- What no change of the table does: free a slot, or move a context (R190). -/
def TableKept (a b : List Socket) : Prop := ∀ (i : Nat) (k : Socket), a[i]? = some k → ∃ l, b[i]? = some l ∧ SocketKept k l

/-- One change of the state. -/
inductive Move : State → State → Prop
  | effect (s : State) (e : Effect) (h : ∀ a b, e ≠ .obsTransition a b) : Move s { s with effects := s.effects ++ [e] }
  | drv (s : State) (d : Driver) (h : DriverKept s.drv d) : Move s { s with drv := d }
  | state (s : State) (d : DrvState) : Move s (setState d s)
  | tx (s : State) (a : Nat) (l : List Byte) : Move s { s with tx := bufWriteBytes s.cfg.bufSize s.tx a l }
  | rx (s : State) (a : Nat) (l : List Byte) : Move s { s with rx := bufWriteBytes s.cfg.bufSize s.rx a l }
  | sm (s : State) (m : SocketManager) (h : TableKept s.sm.table m.table) : Move s { s with sm := m }
  | result (s : State) (r : OpResult) : Move s { s with result := r }
  | env (s : State) (e : Env) (h : e.schedule = s.env.schedule) : Move s { s with env := e }

/-- Any number of them. -/
inductive Moves : State → State → Prop
  | refl (s : State) : Moves s s
  | tail {s t u : State} (h : Moves s t) (m : Move t u) : Moves s u

theorem Move.moves {s t : State} (m : Move s t) : Moves s t := .tail (.refl s) m

theorem Moves.trans {s t u : State} (h : Moves s t) (g : Moves t u) : Moves s u := by
  induction g with
  | refl => exact h
  | tail _ m ih => exact .tail ih m

/-! ### The primitive operations -/

theorem moves_emit (e : Effect) (s : State) (h : ∀ a b, e ≠ .obsTransition a b) : Moves s (emit e s) :=
  (Move.effect s e h).moves

theorem moves_driveCs (v : Bool) (s : State) : Moves s (driveCs v s) :=
  (Move.drv s { s.drv with cs := v } (by constructor <;> simp)).moves.trans (moves_emit _ _ (by simp))

theorem moves_driveIntEn (v : Bool) (s : State) : Moves s (driveIntEn v s) :=
  (Move.drv s { s.drv with intEn := v } (by constructor <;> simp)).moves.trans (moves_emit _ _ (by simp))

theorem moves_driveChipEn (s : State) : Moves s (driveChipEn true s) :=
  (Move.drv s { s.drv with chipEn := true } (by constructor <;> simp)).moves.trans (moves_emit _ _ (by simp))

theorem afterRead_schedule (e : Env) : e.afterRead.schedule = e.schedule := by unfold Env.afterRead; split <;> rfl

theorem moves_readIrqLevel (s : State) : Moves s (readIrqLevel s).2 :=
  (Move.env s s.env.afterRead (afterRead_schedule _)).moves.trans (moves_emit _ _ (by simp))

theorem moves_setState (d : DrvState) (s : State) : Moves s (setState d s) := (Move.state s d).moves

theorem moves_requestXfer (kind : XferKind) (n : Nat) (s : State) : Moves s (requestXfer kind n s) :=
  (Move.drv s { s.drv with xfer := some ⟨kind, n⟩ } (by constructor <;> simp)).moves.trans (moves_emit _ _ (by simp))

theorem moves_sendOnWire (n : Nat) (s : State) : Moves s (sendOnWire n s) := (Move.env s _ (by exact rfl)).moves

theorem moves_closeXfer (s : State) : Moves s (closeXfer s) := (Move.drv s _ (by constructor <;> simp)).moves

theorem moves_countBytesTx (n : Nat) (s : State) : Moves s (countBytesTx n s) :=
  (Move.drv s _ (by constructor <;> simp)).moves

theorem moves_countBytesRx (n : Nat) (s : State) : Moves s (countBytesRx n s) :=
  (Move.drv s _ (by constructor <;> simp)).moves

theorem moves_recordCommand (opcode : Opcode) (s : State) : Moves s (recordCommand opcode s) :=
  (Move.drv s { s.drv with pendingCommand := some opcode, statCommands := s.drv.statCommands + 1 }
    (by constructor <;> simp)).moves.trans (moves_emit _ _ (by simp))

theorem moves_countInterrupt (s : State) : Moves s (countInterrupt s) := (Move.drv s _ (by constructor <;> simp)).moves

theorem moves_setInterruptPending (v : Bool) (s : State) : Moves s (setInterruptPending v s) :=
  (Move.drv s _ (by constructor <;> simp)).moves

theorem moves_recordIpConfig (v : List Byte) (s : State) : Moves s (recordIpConfig v s) :=
  (Move.drv s _ (by constructor <;> simp)).moves

theorem moves_advanceStatusTimer (dt : Word32) (s : State) : Moves s (advanceStatusTimer dt s) :=
  (Move.drv s _ (by constructor <;> simp)).moves

theorem moves_writeTx (a : Nat) (l : List Byte) (s : State) : Moves s (writeTx a l s) := (Move.tx s a l).moves

theorem moves_writeRx (a : Nat) (l : List Byte) (s : State) : Moves s (writeRx a l s) := (Move.rx s a l).moves

theorem moves_setTransmitLength (n : Nat) (s : State) : Moves s (setTransmitLength n s) :=
  (Move.drv s _ (by constructor <;> simp)).moves

theorem moves_drawSlot (s : State) : Moves s (drawSlot s) := (Move.env s _ (by exact rfl)).moves

theorem TableKept.refl (a : List Socket) : TableKept a a := fun _ k h => ⟨k, h, .refl k⟩

theorem tableKept_modify (a : List Socket) (i : Nat) (f : Socket → Socket) (hf : ∀ k, SocketKept k (f k)) :
    TableKept a (a.modify i f) := by
  intro j k h
  rw [List.getElem?_modify, h]
  by_cases hj : i = j
  · exact ⟨f k, by simp [hj], hf k⟩
  · exact ⟨k, by simp [hj], .refl k⟩

theorem moves_updateSocket (i : Nat) (f : Socket → Socket) (s : State) (hf : ∀ k, SocketKept k (f k)) :
    Moves s (updateSocket i f s) :=
  (Move.sm s { s.sm with table := s.sm.table.modify i f } (tableKept_modify _ _ _ hf)).moves

theorem moves_setCurrent (c : Option Slot) (s : State) : Moves s (setCurrent c s) :=
  (Move.sm s { s.sm with current := c } (.refl _)).moves

theorem moves_setSelectPending (v : Bool) (s : State) : Moves s (setSelectPending v s) :=
  (Move.sm s { s.sm with selectPending := v } (.refl _)).moves

theorem moves_raise (e : OpError) (s : State) : Moves s (raise e s) := (Move.result s _).moves

theorem moves_finish (r : OpResult) (s : State) : Moves s (finish r s) := (Move.result s r).moves

theorem moves_finishStatus (r : State × Status) : Moves r.1 (finishStatus r) := by
  unfold finishStatus
  split
  · exact moves_finish _ _
  · exact moves_raise _ _

/-! ### The framer -/

theorem moves_frameTransport (type : Byte) (n : Nat) (s : State) : Moves s (frameTransport type n s).1 := by
  unfold frameTransport
  exact ((moves_writeTx _ _ s).trans (moves_writeTx _ _ _)).trans (moves_setTransmitLength _ _)

theorem moves_frameReadHeader (s : State) : Moves s (frameReadHeader s) := by
  unfold frameReadHeader
  exact (moves_writeTx _ _ s).trans (moves_setTransmitLength _ _)

theorem moves_frameCommand (opcode : Opcode) (args : List Byte) (s : State) (r : State × Nat)
    (h : frameCommand opcode args s = some r) : Moves s r.1 := by
  unfold frameCommand at h
  split at h
  · cases h
  · split at h
    · cases h
    · cases h; exact (moves_writeTx _ _ s).trans (moves_frameTransport _ _ _)

theorem moves_frameData (dopcode : Byte) (args data : List Byte) (s : State) (r : State × Nat)
    (h : frameData dopcode args data s = some r) : Moves s r.1 := by
  unfold frameData at h
  split at h
  · cases h
  · cases h; exact (moves_writeTx _ _ s).trans (moves_frameTransport _ _ _)

/-! ### The sequencer -/

theorem moves_startWith (args : List Byte) (s : State) : Moves s (startWith args s) := by
  unfold startWith
  split
  · exact moves_raise _ _
  · dsimp only
    split
    · exact (Move.env s _ (afterRead_schedule _)).moves.trans (moves_finish _ _)
    · have h0 := ((moves_driveIntEn false s).trans (moves_driveChipEn _)).trans (moves_readIrqLevel _)
      unfold startHandshake
      dsimp only
      generalize (readIrqLevel (driveChipEn true (driveIntEn false s))).2 = t at h0
      have h1 := (h0.trans (moves_driveCs true _)).trans (moves_emit (.delay t.cfg.startDelayUs) _ (by simp))
      generalize emit (.delay t.cfg.startDelayUs) (driveCs true t) = u at h1
      cases hf : frameCommand u.cfg.opcStart args u with
      | none =>
        simp only
        exact h1.trans (moves_raise _ _)
      | some r =>
        have h2 := h1.trans (moves_frameCommand _ _ _ r hf)
        obtain ⟨v, n⟩ := r
        simp only
        exact (((((((h2.trans (moves_recordCommand _ _)).trans (moves_emit (.xferBlocking .tx n) _ (by simp))).trans
          (moves_sendOnWire _ _)).trans (moves_countBytesTx _ _)).trans (moves_driveCs _ _)).trans
          (moves_setState _ _)).trans (moves_driveIntEn _ _)).trans (moves_finish _ _)

theorem moves_issueCommand (opcode : Opcode) (args : List Byte) (s : State) :
    Moves s (issueCommand opcode args s).1 := by
  unfold issueCommand
  split
  · exact .refl s
  · split
    · exact .refl s
    · have h0 := (moves_driveIntEn false s).trans (moves_readIrqLevel _)
      dsimp only
      generalize readIrqLevel (driveIntEn false s) = r at h0 ⊢
      split
      · exact h0.trans (moves_driveIntEn _ _)
      · split
        · exact h0
        · next u n hf =>
          exact ((((h0.trans (moves_frameCommand _ _ _ _ hf)).trans (moves_recordCommand _ _)).trans
            (moves_setState _ _)).trans (moves_driveCs _ _)).trans (moves_driveIntEn _ _)

theorem moves_issueData (dopcode : Byte) (args data : List Byte) (s : State) :
    Moves s (issueData dopcode args data s).1 := by
  unfold issueData
  split
  · exact .refl s
  · split
    · exact .refl s
    · have h0 := (moves_driveIntEn false s).trans (moves_readIrqLevel _)
      dsimp only
      generalize readIrqLevel (driveIntEn false s) = r at h0 ⊢
      split
      · exact h0.trans (moves_driveIntEn _ _)
      · split
        · exact h0
        · next u n hf =>
          exact (((h0.trans (moves_frameData _ _ _ _ _ hf)).trans (moves_setState _ _)).trans
            (moves_driveCs _ _)).trans (moves_driveIntEn _ _)

theorem moves_wlanConnectWith (args : List Byte) (s : State) : Moves s (wlanConnectWith args s).1 := by
  unfold wlanConnectWith
  split
  · exact .refl s
  · exact moves_issueCommand _ _ _

theorem moves_irqCommandRequest (s : State) : Moves s (irqCommandRequest s) :=
  ((moves_driveIntEn _ _).trans (moves_setState _ _)).trans (moves_requestXfer _ _ _)

theorem moves_irqDataRequest (s : State) : Moves s (irqDataRequest s) :=
  ((moves_driveIntEn _ _).trans (moves_setState _ _)).trans (moves_requestXfer _ _ _)

theorem moves_readHeaderSequence (s : State) : Moves s (readHeaderSequence s) :=
  ((((moves_driveIntEn _ _).trans (moves_driveCs _ _)).trans (moves_frameReadHeader _)).trans
    (moves_setState _ _)).trans (moves_requestXfer _ _ _)

theorem moves_irqUnhandled (s : State) : Moves s (irqUnhandled s) :=
  (Move.drv s { s.drv with
    statUnhandledInterrupts := s.drv.statUnhandledInterrupts + 1
    unhandledState := some s.drv.state } (by constructor <;> simp)).moves.trans (moves_setInterruptPending _ _)

theorem moves_onInterrupt (s : State) : Moves s (onInterrupt s) := by
  unfold onInterrupt
  refine (moves_countInterrupt s).trans ?_
  dsimp only
  split
  · exact moves_irqCommandRequest _
  · exact moves_irqDataRequest _
  all_goals first | exact moves_readHeaderSequence _ | exact moves_irqUnhandled _

theorem moves_transportDone (x : Xfer) (rx : List Byte) (s : State) : Moves s (transportDone x rx s) := by
  unfold transportDone
  dsimp only
  have h : Moves s (if x.kind = .rx then s else sendOnWire x.n s) := by
    split
    · exact .refl s
    · exact moves_sendOnWire _ _
  split
  · exact h
  · exact (h.trans (Move.env _ _ (by exact rfl)).moves).trans (moves_writeRx _ _ _)

theorem moves_finishReceive (s : State) : Moves s (finishReceive s) :=
  ((moves_driveCs _ _).trans (moves_setState _ _)).trans (moves_driveIntEn _ _)

theorem moves_completeSendingCommand (n : Nat) (s : State) : Moves s (completeSendingCommand n s) :=
  (((moves_countBytesTx _ _).trans (moves_driveCs _ _)).trans (moves_setState _ _)).trans (moves_driveIntEn _ _)

theorem moves_completeSendingData (n : Nat) (s : State) : Moves s (completeSendingData n s) :=
  (((moves_countBytesTx _ _).trans (moves_driveCs _ _)).trans (moves_setState _ _)).trans (moves_driveIntEn _ _)

theorem moves_completeReadingPayload (n : Nat) (s : State) : Moves s (completeReadingPayload n s) :=
  (moves_countBytesRx _ _).trans (moves_finishReceive _)

theorem moves_completeReadingHeader (s t : State) (h : completeReadingHeader s = some t) : Moves s t := by
  unfold completeReadingHeader at h
  dsimp only at h
  split at h
  · cases h; exact (moves_countBytesRx _ _).trans (moves_finishReceive _)
  · split at h
    · cases h
    · cases h; exact ((moves_countBytesRx _ _).trans (moves_setState _ _)).trans (moves_requestXfer _ _ _)

theorem moves_completeTransfer (x : Xfer) (rx : List Byte) (s t : State) (h : completeTransfer x rx s = some t) :
    Moves s t := by
  unfold completeTransfer at h
  have h0 := (moves_transportDone x rx s).trans (moves_closeXfer _)
  dsimp only at h
  generalize closeXfer (transportDone x rx s) = u at h h0
  split at h
  · cases h; exact h0.trans (moves_completeSendingCommand _ _)
  · cases h; exact h0.trans (moves_completeSendingData _ _)
  · exact h0.trans (moves_completeReadingHeader _ _ h)
  · cases h; exact h0.trans (moves_completeReadingPayload _ _)
  · cases h; exact h0

/-! ### The socket table -/

theorem moves_sockAdd (family type protocol : Word32) (address : List Byte) (s : State) :
    Moves s (sockAdd family type protocol address s) := by
  unfold sockAdd
  split
  · exact moves_raise _ _
  · refine (Move.sm s _ ?_).moves.trans (moves_finish _ _)
    intro i k h
    have hi : i < s.sm.table.length := (List.getElem?_eq_some_iff.mp h).1
    exact ⟨k, by rw [List.getElem?_append_left hi]; exact h, .refl k⟩

theorem moves_sockIssue (i : Nat) (opcode : Opcode) (args : List Byte) (s : State) :
    Moves s (sockIssue i opcode args s).1 := by
  have h := moves_issueCommand opcode args s
  unfold sockIssue
  split
  · next heq => rw [heq] at h; exact h.trans (moves_setCurrent _ _)
  · next heq => rw [heq] at h; exact h

theorem moves_issueThen (i : Nat) (opcode : Opcode) (args : List Byte) (f : Socket → Socket) (s : State)
    (hf : ∀ k, SocketKept k (f k)) : Moves s (issueThen i opcode args f s) := by
  have h := moves_sockIssue i opcode args s
  unfold issueThen
  split
  · next heq => rw [heq] at h; exact h.trans (moves_updateSocket _ _ _ hf)
  · next heq => rw [heq] at h; exact h

theorem moves_smInit (i : Nat) (k : Socket) (s : State) : Moves s (smInit i k s) :=
  moves_issueThen _ _ _ _ _ fun _ => by constructor <;> simp

theorem moves_smCreated (i : Nat) (k : Socket) (s : State) : Moves s (smCreated i k s) := by
  unfold smCreated
  split
  · exact moves_issueThen _ _ _ _ _ fun _ => by constructor <;> simp
  · exact moves_updateSocket _ _ _ fun _ => by constructor <;> simp

theorem moves_smFailed (i : Nat) (dt : Word32) (k : Socket) (s : State) : Moves s (smFailed i dt k s) := by
  unfold smFailed
  split <;> exact moves_updateSocket _ _ _ fun _ => by constructor <;> simp

theorem moves_smReady (i : Nat) (k : Socket) (s : State) : Moves s (smReady i k s) := by
  unfold smReady
  split
  · exact moves_issueThen _ _ _ _ _ fun _ => by constructor <;> simp
  · exact .refl s

theorem moves_smCloseWait (i : Nat) (k : Socket) (s : State) : Moves s (smCloseWait i k s) :=
  moves_issueThen _ _ _ _ _ fun _ => by constructor <;> simp

theorem moves_smSlot (dt : Word32) (i : Nat) (s : State) : Moves s (smSlot dt i s) := by
  unfold smSlot
  split
  · exact .refl s
  · split
    · exact moves_smInit _ _ _
    · exact moves_smCreated _ _ _
    · exact moves_smFailed _ _ _ _
    · exact moves_smReady _ _ _
    · exact moves_smCloseWait _ _ _
    all_goals exact .refl s

theorem moves_smSelect (s : State) : Moves s (smSelect s) := by
  unfold smSelect
  split
  · split
    · exact .refl s
    · have h := moves_issueCommand s.cfg.opcSelect (argsSelect s.cfg.codec (selectMask s.sm.table)) s
      split
      · next heq => rw [heq] at h; exact h.trans (moves_setSelectPending _ _)
      · next heq => rw [heq] at h; exact h
  · exact .refl s

theorem moves_smSlots (dt : Word32) (l : List Nat) (s : State) :
    Moves s (l.foldl (fun t i => smSlot dt i t) s) := by
  induction l generalizing s with
  | nil => exact .refl s
  | cons i l ih => exact (moves_smSlot dt i s).trans (ih _)

theorem moves_smPoll (dt : Word32) (s : State) : Moves s (smPoll dt s) :=
  (moves_smSlots dt _ s).trans (moves_smSelect _)

theorem moves_replyTo (cur : Option Nat) (expected : SockState) (f : Socket → Socket) (s : State)
    (hf : ∀ k, SocketKept k (f k)) : Moves s (replyTo cur expected f s) := by
  unfold replyTo
  split
  · exact .refl s
  · split
    · exact .refl s
    · split
      · exact moves_updateSocket _ _ _ hf
      · exact .refl s

theorem moves_replyCreate (args : List Byte) (cur : Option Nat) (s : State) : Moves s (replyCreate args cur s) := by
  unfold replyCreate
  split
  · exact .refl s
  · exact moves_replyTo _ _ _ _ fun _ => by constructor <;> simp

theorem moves_replyConnect (args : List Byte) (cur : Option Nat) (s : State) : Moves s (replyConnect args cur s) := by
  unfold replyConnect
  split
  · exact .refl s
  · split <;> exact moves_replyTo _ _ _ _ fun _ => by constructor <;> simp

theorem moves_replyClose (cur : Option Nat) (s : State) : Moves s (replyClose cur s) :=
  moves_replyTo _ _ _ _ fun _ => by constructor <;> simp

theorem moves_replySelect (args : List Byte) (s : State) : Moves s (replySelect args s) := by
  unfold replySelect
  refine (moves_setSelectPending false s).trans ?_
  dsimp only
  split
  · exact .refl _
  · refine (Move.sm _ _ ?_).moves
    intro i k h
    refine ⟨_, by simpa using ⟨k, h, rfl⟩, ?_⟩
    unfold markReadable
    split <;> constructor <;> simp

theorem moves_replyRecv (s : State) : Moves s (replyRecv s) := moves_setState _ _

theorem moves_replyServer (opcode : Opcode) (cur : Option Nat) (s : State) : Moves s (replyServer opcode cur s) := by
  unfold replyServer
  have h1 : Moves s (if opcode = s.cfg.opcBind then replyTo cur .binding (fun k => { k with state := .bound }) s else s) := by
    split
    · exact moves_replyTo _ _ _ _ fun _ => by constructor <;> simp
    · exact .refl s
  refine h1.trans ?_
  dsimp only
  generalize (if opcode = s.cfg.opcBind then replyTo cur .binding (fun k => { k with state := .bound }) s else s) = t
  have h2 : Moves t (if opcode = t.cfg.opcListen then
      replyTo cur .listening (fun k => { k with state := .accepting }) t else t) := by
    split
    · exact moves_replyTo _ _ _ _ fun _ => by constructor <;> simp
    · exact .refl t
  refine h2.trans ?_
  generalize (if opcode = t.cfg.opcListen then
    replyTo cur .listening (fun k => { k with state := .accepting }) t else t) = u
  split
  · exact moves_replyTo _ _ _ _ fun _ => by constructor <;> simp
  · exact .refl u

theorem moves_sockReply (opcode : Opcode) (args : List Byte) (cur : Option Nat) (s : State) :
    Moves s (sockReply opcode args cur s) := by
  unfold sockReply
  split
  · exact moves_replyCreate _ _ _
  · split
    · exact moves_replyConnect _ _ _
    · split
      · exact moves_replyClose _ _
      · split
        · exact moves_replySelect _ _
        · split
          · exact moves_replyRecv _
          · exact moves_replyServer _ _ _

theorem moves_sockCloseWait (d : Word32) (s : State) : Moves s (sockCloseWait d s) := by
  unfold sockCloseWait
  split
  · exact .refl s
  · exact moves_updateSocket _ _ _ fun _ => by constructor <;> simp

theorem moves_sockData (dargs : List Byte) (m : Nat) (s : State) : Moves s (sockData dargs m s) := by
  unfold sockData
  split
  · exact .refl s
  · split
    · exact .refl s
    · exact moves_updateSocket _ _ _ fun _ => by constructor <;> simp

theorem moves_sockClose (i : Nat) (s : State) : Moves s (sockClose i s) := by
  unfold sockClose
  split
  · exact moves_raise _ _
  · next k _ =>
    split
    · exact moves_raise _ _
    · have h := moves_sockIssue i s.cfg.opcClose (argsClose s.cfg.codec k.descriptor) s
      split <;> next heq =>
        rw [heq] at h
        first
        | exact h.trans (moves_raise _ _)
        | exact (h.trans (moves_updateSocket _ _ _ fun _ => by constructor <;> simp)).trans (moves_finish _ _)

theorem moves_sockRecv (i : Nat) (n : Nat) (s : State) : Moves s (sockRecv i n s) := by
  unfold sockRecv
  split
  · exact moves_raise _ _
  · next k _ =>
    split
    · exact moves_raise _ _
    · have h := moves_sockIssue i s.cfg.opcRecv (argsRecv s.cfg.codec k.descriptor n) s
      split <;> next heq =>
        rw [heq] at h
        first
        | exact h.trans (moves_raise _ _)
        | exact (h.trans (moves_updateSocket _ _ _ fun _ => by constructor <;> simp)).trans (moves_finish _ _)

theorem moves_sendTo (i : Nat) (data address : List Byte) (s : State) : Moves s (sendTo i data address s) := by
  unfold sendTo
  split
  · exact moves_raise _ _
  · split
    · exact moves_raise _ _
    · exact (moves_issueData _ _ _ _).trans (moves_finishStatus _)

/-! ### The dispatcher -/

theorem moves_resume (s : State) : Moves s (resume s) := by
  unfold resume
  split <;> exact moves_setState _ _

theorem moves_onBufferSize (args : List Byte) (s : State) : Moves s (onBufferSize args s) := by
  unfold onBufferSize
  split
  · exact .refl s
  · exact (Move.drv s _ (by constructor <;> simp)).moves

theorem moves_onStatusGet (args : List Byte) (s : State) : Moves s (onStatusGet args s) := by
  unfold onStatusGet
  split
  · exact .refl s
  · dsimp only
    split
    · exact (Move.drv s _ (by constructor <;> simp)).moves.trans (moves_issueCommand _ _ _)
    · exact (Move.drv s _ (by constructor <;> simp)).moves

theorem moves_onDhcp (args : List Byte) (s : State) : Moves s (onDhcp args s) := by
  unfold onDhcp
  split
  · exact .refl s
  · exact moves_recordIpConfig _ _

theorem moves_onCloseWait (args : List Byte) (s : State) : Moves s (onCloseWait args s) := by
  unfold onCloseWait
  split
  · exact .refl s
  · exact moves_sockCloseWait _ _

theorem moves_dispatchUnsolicited (opcode : Opcode) (args : List Byte) (s : State) :
    Moves s (dispatchUnsolicited opcode args s).1 := by
  unfold dispatchUnsolicited
  refine (Move.drv s { s.drv with statUnsolicited := s.drv.statUnsolicited + 1 }
    (by constructor <;> simp)).moves.trans ?_
  dsimp only
  split
  · exact (moves_onDhcp _ _).trans (moves_resume _)
  · split
    · exact (moves_onCloseWait _ _).trans (moves_resume _)
    · exact moves_resume _

theorem moves_clearPending (s : State) : Moves s (clearPending s) :=
  ((Move.sm s { s.sm with current := none } (.refl _)).moves.trans
    (Move.drv _ { s.drv with pendingCommand := none } (by constructor <;> simp)).moves).trans (moves_setState _ _)

theorem moves_dispatchMatchingReply (opcode : Opcode) (args : List Byte) (s : State) :
    Moves s (dispatchMatchingReply opcode args s).1 := by
  unfold dispatchMatchingReply
  refine (moves_clearPending s).trans ?_
  dsimp only
  generalize clearPending s = t
  split
  · exact moves_onBufferSize _ _
  · split
    · exact moves_onStatusGet _ _
    · split
      · exact moves_sockReply _ _ _ _
      · split <;> exact .refl t

theorem moves_dispatchEventWith (opcode : Opcode) (args : List Byte) (n : Nat) (s : State) :
    Moves s (dispatchEventWith opcode args n s).1 := by
  unfold dispatchEventWith
  refine ((Move.drv s { s.drv with statEvents := s.drv.statEvents + 1 } (by constructor <;> simp)).moves.trans
    (moves_emit (.obsEvent opcode args n) _ (by simp))).trans ?_
  dsimp only
  split
  · split
    · exact moves_dispatchMatchingReply _ _ _
    · exact moves_resume _
  · exact moves_dispatchUnsolicited _ _ _

theorem moves_dispatchDataWith (dopcode : Byte) (dargs data : List Byte) (m : Nat) (s : State) :
    Moves s (dispatchDataWith dopcode dargs data m s).1 :=
  ((moves_sockData _ _ _).trans (moves_emit _ _ (by simp))).trans (moves_resume _)

theorem moves_dispatchData (s : State) : Moves s (dispatchData s).1 := by
  unfold dispatchData
  split
  · exact moves_resume s
  · exact moves_dispatchDataWith _ _ _ _ _

theorem moves_dispatchEvent (s : State) : Moves s (dispatchEvent s).1 := by
  unfold dispatchEvent
  split
  · exact moves_resume s
  · exact moves_dispatchEventWith _ _ _ _

theorem moves_dispatch (s : State) : Moves s (dispatch s).1 := by
  unfold dispatch
  split
  · exact moves_resume s
  · split
    · exact moves_dispatchData s
    · split
      · exact moves_dispatchEvent s
      · exact moves_resume s

/-! ### The polling loop -/

theorem moves_pollDispatch (s : State) : Moves s (pollDispatch s) := by
  unfold pollDispatch
  split
  · exact moves_dispatch s
  · exact .refl s

theorem moves_pollDrain (s : State) : Moves s (pollDrain s) := by
  unfold pollDrain
  split
  · exact (moves_setInterruptPending _ _).trans (moves_readHeaderSequence _)
  · exact .refl s

theorem moves_pollStatusTimer (dt : Word32) (s : State) : Moves s (pollStatusTimer dt s) := by
  unfold pollStatusTimer
  refine (moves_advanceStatusTimer dt s).trans ?_
  dsimp only
  generalize advanceStatusTimer dt s = t
  split
  · have h := moves_issueCommand t.cfg.opcStatusGet [] t
    split <;> next heq =>
      rw [heq] at h
      first
      | exact h
      | exact h.trans (Move.drv _ _ (by constructor <;> simp)).moves
  · exact .refl t

theorem moves_pollSocketManager (dt : Word32) (s : State) : Moves s (pollSocketManager dt s) := by
  unfold pollSocketManager
  split
  · exact moves_smPoll _ _
  · exact .refl s

theorem moves_poll (dt : Word32) (s : State) : Moves s (poll dt s) :=
  (((moves_pollDispatch s).trans (moves_pollDrain _)).trans (moves_pollStatusTimer _ _)).trans
    (moves_pollSocketManager _ _)

/-! ### Every operation -/

theorem moves_done {r : OpResult} {s t u : State} (h : Moves s t) (he : done r t = .next u) : Moves s u := by
  cases he; exact h.trans (moves_finish _ _)

theorem moves_next {s t u : State} (h : Moves s t) (he : (.next t : Outcome) = .next u) : Moves s u := by
  cases he; exact h

theorem moves_finishFrame {s u : State} {o : Option (State × Nat)} (h : ∀ r, o = some r → Moves s r.1)
    (he : finishFrame s o = .next u) : Moves s u := by
  cases o with
  | none => cases he; exact moves_raise _ _
  | some r => exact moves_done (h r rfl) he

theorem moves_finishCompletion {s u : State} {o : Option State} (h : ∀ t, o = some t → Moves s t)
    (he : finishCompletion o = .next u) : Moves s u := by
  cases o with
  | none => cases he
  | some t => exact moves_done (h t rfl) he

theorem moves_onSlot {i : Nat} {f : Socket → State → State} {s u : State} (h : ∀ k t, Moves t (f k t))
    (he : onSlot i f s = .next u) : Moves s u := by
  unfold onSlot at he
  split at he
  · exact moves_done ((moves_drawSlot s).trans (h _ _)) he
  · exact moves_done (h _ _) he

theorem moves_execXportHdrWrite (length : BitVec 16) (s t : State) (h : execXportHdrWrite length s = .next t) :
    Moves s t := by
  exact moves_done ((moves_writeTx _ _ s).trans (moves_setTransmitLength _ _)) h

theorem moves_execPad (s t : State) (h : execPad s = .next t) : Moves s t := by
  unfold execPad at h
  dsimp only at h
  split at h
  · exact moves_done (((moves_writeTx _ _ s).trans (moves_writeTx _ _ _)).trans (moves_setTransmitLength _ _)) h
  · exact moves_done (.refl s) h

/-- Every operation that answers a next state gets there by `Moves`. -/
theorem exec_moves (i : Instr) (s t : State) (h : exec i s = .next t) : Moves s t := by
  cases i <;> simp only [exec] at h
  case xportHdrWrite => exact moves_execXportHdrWrite _ _ _ h
  case xportHdrRead => exact moves_done (moves_frameReadHeader s) h
  case xportHdrReceived => exact moves_done (moves_writeRx _ _ s) h
  case cmdHdr => exact moves_finishFrame (moves_frameCommand _ _ s) h
  case dataHdrOut => exact moves_finishFrame (moves_frameData _ _ _ s) h
  case pad => exact moves_execPad _ _ h
  case cmdStart => exact moves_next (moves_startWith _ s) h
  case cmdWlanConnect => exact moves_next ((moves_wlanConnectWith _ s).trans (moves_finishStatus _)) h
  case dataSendto => exact moves_next ((moves_issueData _ _ _ s).trans (moves_finishStatus _)) h
  case tagUnrecognised => exact moves_done (moves_resume s) h
  case packetMalformed => exact moves_done (moves_resume s) h
  case dataIn => exact moves_done (moves_dispatchDataWith _ _ _ _ s) h
  case dataHdrIn => exact moves_done (moves_dispatchDataWith _ _ _ _ s) h
  case frameTransport => exact moves_done (moves_frameTransport _ _ s) h
  case frameReadHeader => exact moves_done (moves_frameReadHeader s) h
  case frameCommand => exact moves_finishFrame (moves_frameCommand _ _ s) h
  case frameData => exact moves_finishFrame (moves_frameData _ _ _ s) h
  case parseTransport => exact moves_done (.refl s) h
  case parseEventHeader => exact moves_done (.refl s) h
  case parseDataHeader => exact moves_done (.refl s) h
  case start => exact moves_next (moves_startWith _ s) h
  case issueCommand => exact moves_next ((moves_issueCommand _ _ s).trans (moves_finishStatus _)) h
  case issueData => exact moves_next ((moves_issueData _ _ _ s).trans (moves_finishStatus _)) h
  case onInterrupt => exact moves_done (moves_onInterrupt s) h
  case onInterruptCommandRequest => exact moves_done (moves_irqCommandRequest s) h
  case onInterruptDataRequest => exact moves_done (moves_irqDataRequest s) h
  case onInterruptReadHeader => exact moves_done (moves_readHeaderSequence s) h
  case onInterruptUnhandled => exact moves_done (moves_irqUnhandled s) h
  case onTransportComplete =>
    unfold execOnTransportComplete at h
    split at h
    · exact moves_next (moves_raise _ s) h
    · exact moves_finishCompletion (fun t => moves_completeTransfer _ _ s t) h
  case onTransportCompleteSendingCommand => exact moves_done (moves_completeSendingCommand _ s) h
  case onTransportCompleteSendingData => exact moves_done (moves_completeSendingData _ s) h
  case onTransportCompleteReadingHeader =>
    exact moves_finishCompletion (fun t => moves_completeReadingHeader s t) h
  case onTransportCompleteReadingPayload => exact moves_done (moves_completeReadingPayload _ s) h
  case finishReceive => exact moves_done (moves_finishReceive s) h
  case onTransportCompleteNoTransaction => exact moves_next (moves_raise _ s) h
  case poll => exact moves_done (moves_poll _ s) h
  case pollDispatch => exact moves_done (moves_pollDispatch s) h
  case pollDrainLatchedInterrupt => exact moves_done (moves_pollDrain s) h
  case pollStatusTimer => exact moves_done (moves_pollStatusTimer _ s) h
  case pollSocketManager => exact moves_done (moves_pollSocketManager _ s) h
  case setState => exact moves_done (moves_setState _ s) h
  case wlanConnect => exact moves_next ((moves_wlanConnectWith _ s).trans (moves_finishStatus _)) h
  case getWlanStatus => exact moves_done (.refl s) h
  case getBuffers => exact moves_done (.refl s) h
  case getIpConfig => exact moves_done (.refl s) h
  case dispatch => exact moves_done (moves_dispatch s) h
  case dispatchResume => exact moves_done (moves_resume s) h
  case dispatchData => exact moves_done (moves_dispatchData s) h
  case dispatchEvent => exact moves_done (moves_dispatchEvent s) h
  case dispatchUnsolicited => exact moves_done (moves_dispatchUnsolicited _ _ s) h
  case dispatchMatchingReply => exact moves_done (moves_dispatchMatchingReply _ _ s) h
  case sockAdd => exact moves_next (moves_sockAdd _ _ _ _ s) h
  case sockLookup => exact moves_done (.refl s) h
  case sockIssue => exact moves_next ((moves_sockIssue _ _ _ s).trans (moves_finishStatus _)) h
  case smPoll => exact moves_done (moves_smPoll _ s) h
  case smPollInit => exact moves_onSlot (fun k => moves_smInit _ k) h
  case smPollCreated => exact moves_onSlot (fun k => moves_smCreated _ k) h
  case smPollFailed => exact moves_onSlot (fun k => moves_smFailed _ _ k) h
  case smPollReady => exact moves_onSlot (fun k => moves_smReady _ k) h
  case smPollCloseWait => exact moves_onSlot (fun k => moves_smCloseWait _ k) h
  case smPollOtherStates => exact moves_done (.refl s) h
  case smPollSelect => exact moves_done (moves_smSelect s) h
  case sockReplySocket => exact moves_done (moves_replyCreate _ _ s) h
  case sockReplyConnect => exact moves_done (moves_replyConnect _ _ s) h
  case sockReplyClose => exact moves_done (moves_replyClose _ s) h
  case sockReplySelect => exact moves_done (moves_replySelect _ s) h
  case sockReplyRecv => exact moves_done (moves_replyRecv s) h
  case sockReplyServer => exact moves_done (moves_replyServer _ _ s) h
  case sockCloseWait => exact moves_done (moves_sockCloseWait _ s) h
  case sockData => exact moves_done (moves_sockData _ _ s) h
  case sockClose => exact moves_next (moves_sockClose _ s) h
  case sockRecv => exact moves_next (moves_sockRecv _ _ s) h
  case sendTo => exact moves_next (moves_sendTo _ _ _ s) h
  -- the other command rows, then the event rows
  all_goals first
    | exact moves_next ((moves_issueCommand _ _ s).trans (moves_finishStatus _)) h
    | exact moves_done (moves_dispatchEventWith _ _ _ s) h

/-! ### What no operation does -/

theorem Moves.cfg {s t : State} (h : Moves s t) : t.cfg = s.cfg := by
  induction h with
  | refl => rfl
  | tail _ m ih => cases m <;> exact ih

/-- No operation writes the schedule: what the environment does next is not the block's to say (R12). -/
theorem Moves.schedule {s t : State} (h : Moves s t) : t.env.schedule = s.env.schedule := by
  induction h with
  | refl => rfl
  | tail _ m ih =>
    cases m with
    | env e he => exact he.trans ih
    | _ => exact ih

/-- Every operation keeps both buffers in canonical form. -/
theorem Moves.wf {s t : State} (h : Moves s t) (hs : Memory.wf s.tx = true ∧ Memory.wf s.rx = true) :
    Memory.wf t.tx = true ∧ Memory.wf t.rx = true := by
  induction h with
  | refl => exact hs
  | tail _ m ih =>
    cases m with
    | tx a l => exact ⟨bufWriteBytes_wf _ _ _ _ ih.1, ih.2⟩
    | rx a l => exact ⟨ih.1, bufWriteBytes_wf _ _ _ _ ih.2⟩
    | _ => exact ih

/-- Every operation keeps both buffers' addresses below `BUF_SIZE` (R60, R71). -/
theorem Moves.within {s t : State} (h : Moves s t)
    (hs : Memory.within s.cfg.bufSize s.tx = true ∧ Memory.within s.cfg.bufSize s.rx = true) :
    Memory.within t.cfg.bufSize t.tx = true ∧ Memory.within t.cfg.bufSize t.rx = true := by
  induction h with
  | refl => exact hs
  | tail _ m ih =>
    cases m with
    | tx a l => exact ⟨bufWriteBytes_within _ _ _ _ ih.1, ih.2⟩
    | rx a l => exact ⟨ih.1, bufWriteBytes_within _ _ _ _ ih.2⟩
    | _ => exact ih

end Sys2Proof.Machine
end

