-- ==== Sys2Proof/Laws/Sequencer.lean ====
section
/-! SUPPORT. Once for each operation of the sequencer, everything it can do (R120 to R134): which of its outcomes, under
which conditions, and the state it then leaves, register by register. -/

namespace Sys2Proof.Machine

/-- A buffer holds `bytes` from address 0 on and is otherwise `before`; it keeps form and range. -/
structure HoldsFrame (size : Nat) (before after : Memory) (bytes : List Byte) : Prop where
  read : ∀ x, memRead after x = if x < bytes.length then bytes.getD x unwrittenByte else memRead before x
  wf : Memory.wf before = true → Memory.wf after = true
  within : Memory.within size before = true → Memory.within size after = true

/-! ### Issuing -/

/-- The state an accepted ISSUE_COMMAND leaves, TX apart (R121). -/
def commandIssued (opcode : Opcode) (args : List Byte) (tx : Memory) (s : State) : State :=
  { s with
    tx := tx
    drv := { s.drv with
      transmitLength := BitVec.ofNat 16 (commandBytes s.cfg opcode args).length
      pendingCommand := some opcode
      statCommands := s.drv.statCommands + 1
      state := .commandRequest
      cs := true
      intEn := true }
    effects := s.effects ++ [.intEn false, .irqLevel .idle, .obsCommand opcode,
      .obsTransition .idle .commandRequest, .cs true, .intEn true]
    env := s.env.afterRead }

/-- The state an accepted ISSUE_DATA leaves, TX apart (R122). -/
def dataIssued (dopcode : Byte) (args data : List Byte) (tx : Memory) (s : State) : State :=
  { s with
    tx := tx
    drv := { s.drv with
      transmitLength := heldLength (dataBytes s.cfg dopcode args data).length
      state := .dataRequest
      cs := true
      intEn := true }
    effects := s.effects ++ [.intEn false, .irqLevel .idle, .obsTransition .idle .dataRequest, .cs true, .intEn true]
    env := s.env.afterRead }

/-- The state a deferred request leaves (R121, R122). -/
def issueDeferred (s : State) : State :=
  { s with
    drv := { s.drv with intEn := true }
    effects := s.effects ++ [.intEn false, .irqLevel .asserted, .intEn true]
    env := s.env.afterRead }

/-- Everything ISSUE_COMMAND can do (R121). -/
inductive IssueCase (opcode : Opcode) (args : List Byte) (s : State) : State × Status → Prop
  | busy (h : s.drv.pendingCommand ≠ none ∨ s.drv.state ≠ .idle) : IssueCase opcode args s (s, .err .busy)
  | tooLong (hp : s.drv.pendingCommand = none) (hs : s.drv.state = .idle) (h : args.length > 255) :
    IssueCase opcode args s (s, .err .invalid)
  | deferred (hp : s.drv.pendingCommand = none) (hs : s.drv.state = .idle) (ha : args.length ≤ 255)
    (h : s.env.level = .asserted) : IssueCase opcode args s (issueDeferred s, .err .busy)
  | unframed (hp : s.drv.pendingCommand = none) (hs : s.drv.state = .idle) (ha : args.length ≤ 255)
    (h : s.env.level = .idle) (hb : s.cfg.bufSize < 5 + (4 + args.length) + 1) :
    IssueCase opcode args s ((readIrqLevel (driveIntEn false s)).2, .err .invalid)
  | issued (hp : s.drv.pendingCommand = none) (hs : s.drv.state = .idle) (ha : args.length ≤ 255)
    (h : s.env.level = .idle) (hb : 5 + (4 + args.length) + 1 ≤ s.cfg.bufSize) (tx : Memory)
    (ht : HoldsFrame s.cfg.bufSize s.tx tx (commandBytes s.cfg opcode args)) :
    IssueCase opcode args s (commandIssued opcode args tx s, .ok)

theorem issueCommand_cases (opcode : Opcode) (args : List Byte) (s : State) :
    IssueCase opcode args s (issueCommand opcode args s) := by
  unfold issueCommand
  by_cases h1 : s.drv.pendingCommand ≠ none ∨ s.drv.state ≠ .idle
  · rw [if_pos h1]; exact .busy h1
  · rw [if_neg h1]
    have hp : s.drv.pendingCommand = none := by_contra fun h => h1 (.inl h)
    have hs : s.drv.state = .idle := by_contra fun h => h1 (.inr h)
    by_cases h2 : args.length > 255
    · rw [if_pos h2]; exact .tooLong hp hs h2
    · rw [if_neg h2]
      have ha : args.length ≤ 255 := by omega
      dsimp only
      cases hl : s.env.level with
      | asserted =>
        have : (readIrqLevel (driveIntEn false s)).1 = .asserted := hl
        simp only [this]
        have e : driveIntEn true (readIrqLevel (driveIntEn false s)).2 = issueDeferred s := by
          simp [driveIntEn, readIrqLevel, emit, issueDeferred, hl]
        rw [e]
        exact .deferred hp hs ha hl
      | idle =>
        have : (readIrqLevel (driveIntEn false s)).1 = .idle := hl
        simp only [this]
        rcases frameCommand_cases opcode args (readIrqLevel (driveIntEn false s)).2 with
          ⟨h, hf⟩ | ⟨-, hb, tx, hf, hr, hw, hi⟩
        · rw [hf]
          refine .unframed hp hs ha hl ?_
          simp at h; omega
        · rw [hf]
          simp only [readIrqLevel_cfg, driveIntEn_cfg, readIrqLevel_tx, driveIntEn_tx] at hb hr hw hi
          convert IssueCase.issued hp hs ha hl hb tx ⟨hr, hw, hi⟩ using 1
          simp [enterRequest, recordCommand, driveCs, driveIntEn, setState, readIrqLevel, emit, commandIssued, hl, hs]

/-- Everything ISSUE_DATA can do (R122). -/
inductive IssueDataCase (dopcode : Byte) (args data : List Byte) (s : State) : State × Status → Prop
  | busy (h : s.drv.pendingCommand ≠ none ∨ s.drv.state ≠ .idle) : IssueDataCase dopcode args data s (s, .err .busy)
  | invalid (hp : s.drv.pendingCommand = none) (hs : s.drv.state = .idle)
    (h : frameDataInvalid s.cfg args data = true) : IssueDataCase dopcode args data s (s, .err .invalid)
  | deferred (hp : s.drv.pendingCommand = none) (hs : s.drv.state = .idle)
    (hi : frameDataInvalid s.cfg args data = false) (h : s.env.level = .asserted) :
    IssueDataCase dopcode args data s (issueDeferred s, .err .busy)
  | issued (hp : s.drv.pendingCommand = none) (hs : s.drv.state = .idle)
    (hi : frameDataInvalid s.cfg args data = false) (h : s.env.level = .idle) (tx : Memory)
    (ht : HoldsFrame s.cfg.bufSize s.tx tx (dataBytes s.cfg dopcode args data)) :
    IssueDataCase dopcode args data s (dataIssued dopcode args data tx s, .ok)

theorem issueData_cases (dopcode : Byte) (args data : List Byte) (s : State) :
    IssueDataCase dopcode args data s (issueData dopcode args data s) := by
  unfold issueData
  by_cases h1 : s.drv.pendingCommand ≠ none ∨ s.drv.state ≠ .idle
  · rw [if_pos h1]; exact .busy h1
  · rw [if_neg h1]
    have hp : s.drv.pendingCommand = none := by_contra fun h => h1 (.inl h)
    have hs : s.drv.state = .idle := by_contra fun h => h1 (.inr h)
    cases h2 : frameDataInvalid s.cfg args data with
    | true => exact .invalid hp hs h2
    | false =>
      simp only [Bool.false_eq_true, if_false]
      cases hl : s.env.level with
      | asserted =>
        have : (readIrqLevel (driveIntEn false s)).1 = .asserted := hl
        simp only [this]
        have e : driveIntEn true (readIrqLevel (driveIntEn false s)).2 = issueDeferred s := by
          simp [driveIntEn, readIrqLevel, emit, issueDeferred, hl]
        rw [e]
        exact .deferred hp hs h2 hl
      | idle =>
        have : (readIrqLevel (driveIntEn false s)).1 = .idle := hl
        simp only [this]
        rcases frameData_cases dopcode args data (readIrqLevel (driveIntEn false s)).2 with
          ⟨h, hf⟩ | ⟨-, tx, hf, hr, hw, hi⟩
        · simp only [readIrqLevel_cfg, driveIntEn_cfg, h2] at h
          cases h
        · rw [hf]
          simp only [readIrqLevel_cfg, driveIntEn_cfg, readIrqLevel_tx, driveIntEn_tx] at hr hw hi
          convert IssueDataCase.issued hp hs h2 hl tx ⟨hr, hw, hi⟩ using 1
          simp [enterRequest, driveCs, driveIntEn, setState, readIrqLevel, emit, dataIssued, hl, hs]

/-! ### Start -/

/-- The state a START with the line asserted leaves, TX apart (R120). -/
def started (args : List Byte) (tx : Memory) (sent : List Byte) (s : State) : State :=
  { s with
    tx := tx
    drv := { s.drv with
      state := .startSequence
      pendingCommand := some s.cfg.opcStart
      transmitLength := BitVec.ofNat 16 (commandBytes s.cfg s.cfg.opcStart args).length
      statCommands := s.drv.statCommands + 1
      statBytesTx := s.drv.statBytesTx + (commandBytes s.cfg s.cfg.opcStart args).length
      cs := false
      intEn := true
      chipEn := true }
    effects := s.effects ++ [.intEn false, .chipEn true, .irqLevel .asserted, .cs true, .delay s.cfg.startDelayUs,
      .obsCommand s.cfg.opcStart, .xferBlocking .tx (commandBytes s.cfg s.cfg.opcStart args).length, .cs false,
      .obsTransition .init .startSequence, .intEn true]
    result := .ok
    env := { s.env.afterRead with wireOut := s.env.wireOut ++ [sent] } }

/-- What START does in `Init` with the line asserted and a handshake that can be framed (R120). -/
theorem startWith_started (args : List Byte) (s : State) (h1 : s.drv.state = .init) (h2 : s.env.level = .asserted)
    (ha : args.length ≤ 255) (hb : 5 + (4 + args.length) + 1 ≤ s.cfg.bufSize) :
    ∃ tx, HoldsFrame s.cfg.bufSize s.tx tx (commandBytes s.cfg s.cfg.opcStart args) ∧
      startWith args s =
        started args tx (memReadBytes tx 0 (commandBytes s.cfg s.cfg.opcStart args).length) s := by
  have hlen : (commandBytes s.cfg s.cfg.opcStart args).length ≤ s.cfg.bufSize := by
    rw [length_commandBytes, paddedLength_eq]; omega
  rcases frameCommand_cases s.cfg.opcStart args (emit (.delay s.cfg.startDelayUs)
      (driveCs true (readIrqLevel (driveChipEn true (driveIntEn false s))).2)) with
    ⟨h, -⟩ | ⟨-, -, tx, hf, hr, hw, hi⟩
  · simp at h; omega
  · simp only [emit_cfg, emit_tx, readIrqLevel_cfg, readIrqLevel_tx, driveCs_cfg, driveCs_tx, driveChipEn_cfg,
      driveChipEn_tx, driveIntEn_cfg, driveIntEn_tx] at hf hr hw hi
    refine ⟨tx, ⟨hr, hw, hi⟩, ?_⟩
    have hl : (readIrqLevel (driveChipEn true (driveIntEn false s))).1 = .asserted := h2
    unfold startWith startHandshake
    rw [if_neg (by simp [h1])]
    simp only [hl, readIrqLevel_cfg, driveChipEn_cfg, driveIntEn_cfg, emit_cfg, driveCs_cfg, hf]
    have e : (s.env.afterRead).wireOut = s.env.wireOut := by
      unfold Env.afterRead; split <;> rfl
    simp [started, driveIntEn, driveChipEn, driveCs, setState, readIrqLevel, emit, finish, countBytesTx, sendOnWire,
      recordCommand, h1, h2, e, readTx_of_fits, hlen]

/-- What START does in `Init` with the line asserted and arguments that cannot be framed (R10, R102, R120). -/
theorem startWith_unframed (args : List Byte) (s : State) (h1 : s.drv.state = .init) (h2 : s.env.level = .asserted)
    (ha : args.length > 255) :
    startWith args s = { s with
      drv := { s.drv with cs := true, intEn := false, chipEn := true }
      effects := s.effects ++
        [.intEn false, .chipEn true, .irqLevel .asserted, .cs true, .delay s.cfg.startDelayUs]
      result := .raised .invalid
      env := s.env.afterRead } := by
  have hl : (readIrqLevel (driveChipEn true (driveIntEn false s))).1 = .asserted := h2
  have hf : ∀ u : State, frameCommand u.cfg.opcStart args u = none := fun u => if_pos ha
  unfold startWith startHandshake
  rw [if_neg (by simp [h1])]
  simp only [hl, hf]
  simp [raise, driveIntEn, driveChipEn, driveCs, readIrqLevel, emit, h2]

/-! ### Reading -/

/-- The state the read-header sequence leaves (R126). -/
theorem readHeaderSequence_eq (s : State) :
    readHeaderSequence s = { s with
      tx := bufWriteBytes s.cfg.bufSize s.tx 0 (transportHeaderBytes s.cfg.spiOpRead 0)
      drv := { s.drv with
        intEn := false
        cs := true
        transmitLength := 5
        state := .readingHeader
        xfer := some ⟨.exchange, 5⟩ }
      effects := s.effects ++
        [.intEn false, .cs true, .obsTransition s.drv.state .readingHeader, .xfer .exchange 5] } := by
  simp [readHeaderSequence, requestXfer, setState, frameReadHeader_eq, driveCs, driveIntEn, emit]

/-- What releasing the chip leaves (R129, R130, R133). -/
theorem finishReceive_eq (s : State) :
    finishReceive s = { s with
      drv := { s.drv with cs := false, state := .eventReady, intEn := true }
      effects := s.effects ++ [.cs false, .obsTransition s.drv.state .eventReady, .intEn true] } := by
  simp [finishReceive, driveIntEn, driveCs, setState, emit]

theorem length_chipBytes (rx : List Byte) (n draws : Nat) : (chipBytes rx n draws).length = n := by
  simp [chipBytes]; omega

/-- The state when the transport has done its part and the transaction is closed (R65, R128). -/
theorem closeXfer_transportDone (x : Xfer) (rx : List Byte) (s : State) :
    closeXfer (transportDone x rx s) = { s with
      drv := { s.drv with xfer := none, statSpiCompletions := s.drv.statSpiCompletions + 1 }
      rx := match depositAddress x.kind with
        | none => s.rx
        | some a => bufWriteBytes s.cfg.bufSize s.rx a (chipBytes rx x.n s.env.chipDraws)
      env := { s.env with
        wireOut := if x.kind = .rx then s.env.wireOut else s.env.wireOut ++ [readTx 0 x.n s]
        chipDraws := if x.kind = .tx then s.env.chipDraws else s.env.chipDraws + (x.n - rx.length) } } := by
  obtain ⟨kind, n⟩ := x
  cases kind <;> simp [closeXfer, transportDone, depositAddress, sendOnWire, writeRx]

end Sys2Proof.Machine
end

