-- ==== Sys2Proof/Laws/Sockets.lean ====
section
/-! SUPPORT. Once for each operation of the socket table and the socket manager, everything it can do (R190 to R212). -/

namespace Sys2Proof.Machine

/-! ### Counting down (R197) -/

theorem countdown_eq (t dt : Word32) : countdown t dt = BitVec.ofNat 32 (t.toNat - min dt.toNat t.toNat) := by
  have h := t.isLt
  apply BitVec.eq_of_toNat_eq
  simp only [countdown, BitVec.toNat_sub, BitVec.toNat_ofNat]
  omega

theorem toNat_saturatingAdd (t dt : Word32) : (saturatingAdd t dt).toNat = min (t.toNat + dt.toNat) (2 ^ 32 - 1) := by
  simp only [saturatingAdd, BitVec.toNat_ofNat]
  omega

/-! ### The table (R190, R192) -/

theorem updateSocket_eq (i : Nat) (f : Socket → Socket) (s : State) (k : Socket) (h : s.sm.table[i]? = some k) :
    updateSocket i f s = { s with sm := { s.sm with table := s.sm.table.set i (f k) } } := by
  unfold updateSocket
  have : s.sm.table.modify i f = s.sm.table.set i (f k) := by
    apply List.ext_getElem?
    intro j
    rw [List.getElem?_modify, List.getElem?_set]
    have hi : i < s.sm.table.length := by
      by_contra hn
      rw [List.getElem?_eq_none (by omega)] at h
      cases h
    by_cases hj : i = j
    · subst hj; rw [h]; simp [hi]
    · simp [hj]
  rw [this]

/-- A free slot keeps nothing (log 19). -/
theorem updateSocket_free (i : Nat) (f : Socket → Socket) (s : State) (h : s.sm.count ≤ i) : updateSocket i f s = s := by
  unfold updateSocket
  have : s.sm.table.modify i f = s.sm.table := by
    apply List.ext_getElem?
    intro j
    rw [List.getElem?_modify]
    by_cases hj : i = j
    · subst hj; rw [List.getElem?_eq_none h]; rfl
    · simp [hj]
  rw [this]

theorem count_updateSocket (i : Nat) (f : Socket → Socket) (s : State) :
    (updateSocket i f s).sm.count = s.sm.count := by
  simp [updateSocket, SocketManager.count]

/-- Slot `i` holds a context whose descriptor is meaningful and is `d` (R40, R192). -/
def HoldsDescriptor (s : State) (d : Word32) (i : Nat) : Prop :=
  ∃ k, s.sm.table[i]? = some k ∧ k.state ≠ .init ∧ k.state ≠ .creating ∧ k.descriptor = d

/-- `SOCK_LOOKUP` answers `some i` exactly for the lowest slot that holds the descriptor. -/
theorem sockLookup_some (d : Word32) (s : State) (i : Nat) :
    sockLookup d s = some i ↔ HoldsDescriptor s d i ∧ ∀ j < i, ¬HoldsDescriptor s d j := by
  have key : ∀ j, HoldsDescriptor s d j ↔
      ∃ h : j < s.sm.table.length, (s.sm.table[j].hasDescriptor && s.sm.table[j].descriptor == d) = true := by
    intro j
    unfold HoldsDescriptor Socket.hasDescriptor
    constructor
    · rintro ⟨k, hk, h1, h2, h3⟩
      obtain ⟨h, rfl⟩ := List.getElem?_eq_some_iff.1 hk
      exact ⟨h, by simp [h1, h2, h3]⟩
    · rintro ⟨h, hk⟩
      simp only [Bool.and_eq_true, decide_eq_true_eq, beq_iff_eq] at hk
      exact ⟨_, List.getElem?_eq_getElem h, hk.1.1, hk.1.2, hk.2⟩
  unfold sockLookup
  rw [List.findIdx?_eq_some_iff_getElem]
  constructor
  · rintro ⟨h, h1, h2⟩
    refine ⟨(key i).2 ⟨h, h1⟩, fun j hj hc => ?_⟩
    obtain ⟨_, hc⟩ := (key j).1 hc
    exact h2 j hj hc
  · rintro ⟨h1, h2⟩
    obtain ⟨h, h1⟩ := (key i).1 h1
    exact ⟨h, h1, fun j hj hc => h2 j hj ((key j).2 ⟨_, hc⟩)⟩

/-- `SOCK_LOOKUP` answers `none` exactly when no slot holds the descriptor. -/
theorem sockLookup_none (d : Word32) (s : State) : sockLookup d s = none ↔ ∀ i, ¬HoldsDescriptor s d i := by
  constructor
  · intro h i hi
    obtain ⟨k, hk, h1, h2, h3⟩ := hi
    unfold sockLookup at h
    rw [List.findIdx?_eq_none_iff] at h
    have := h k (List.mem_of_getElem? hk)
    simp [Socket.hasDescriptor, h1, h2, h3] at this
  · intro h
    cases hl : sockLookup d s with
    | none => rfl
    | some i => exact absurd ((sockLookup_some d s i).1 hl).1 (h i)

/-! ### A per-slot rule run by itself (R195 to R199, log 19) -/

theorem onSlot_inUse (i : Nat) (f : Socket → State → State) (s : State) (k : Socket) (h : s.sm.table[i]? = some k) :
    onSlot i f s = done .nothing (f k s) := by simp [onSlot, socketAt, h]

theorem onSlot_free (i : Nat) (f : Socket → State → State) (s : State) (h : s.sm.count ≤ i) :
    onSlot i f s = done .nothing (f (Config.freeSlot s.env.slotDraws) (drawSlot s)) := by
  have : s.sm.table[i]? = none := List.getElem?_eq_none h
  simp [onSlot, socketAt, this]

/-! ### Issuing for a slot (R193, R195 to R199) -/

/-- The index of a slot of the index space is itself (R36, R60(c)). -/
theorem slotIndex_of_lt {i : Nat} (h : i < sockSlots) : slotIndex i = ⟨i, h⟩ := dif_pos h

/-- `sock_issue` is ISSUE_COMMAND, and the slot is current when it was accepted. -/
theorem sockIssue_eq (i : Nat) (opcode : Opcode) (args : List Byte) (s : State) :
    sockIssue i opcode args s =
      match (issueCommand opcode args s).2 with
      | .ok => (setCurrent (some (slotIndex i)) (issueCommand opcode args s).1, .ok)
      | .err e => ((issueCommand opcode args s).1, .err e) := by
  unfold sockIssue
  split <;> rename_i h <;> rw [h]

/-- A command issued for a slot, and the slot's context changed when it was accepted. -/
theorem issueThen_eq (i : Nat) (opcode : Opcode) (args : List Byte) (f : Socket → Socket) (s : State) :
    issueThen i opcode args f s =
      match (issueCommand opcode args s).2 with
      | .ok => updateSocket i f (setCurrent (some (slotIndex i)) (issueCommand opcode args s).1)
      | .err _ => (issueCommand opcode args s).1 := by
  unfold issueThen
  rw [sockIssue_eq]
  cases (issueCommand opcode args s).2 <;> rfl

/-- ISSUE_COMMAND never changes the socket manager: that is `sock_issue`'s business (R121, R193). -/
theorem issueCommand_sm (opcode : Opcode) (args : List Byte) (s : State) : (issueCommand opcode args s).1.sm = s.sm := by
  have h := issueCommand_cases opcode args s
  generalize issueCommand opcode args s = r at h
  cases h <;> rfl

/-- ISSUE_COMMAND never changes a parameter (R5). -/
theorem issueCommand_cfg (opcode : Opcode) (args : List Byte) (s : State) :
    (issueCommand opcode args s).1.cfg = s.cfg := by
  have h := issueCommand_cases opcode args s
  generalize issueCommand opcode args s = r at h
  cases h <;> rfl

/-! ### The select (R201, R205) -/

theorem selectable_iff (d : Word32) : selectable d = true ↔ d.toNat ≤ 31 := by
  have h := d.isLt
  simp only [selectable, Bool.and_eq_true, decide_eq_true_eq, BitVec.toInt_eq_toNat_cond]
  split <;> omega

theorem toInt_of_selectable {d : Word32} (h : selectable d = true) : d.toInt = d.toNat := by
  rw [selectable_iff] at h
  rw [BitVec.toInt_eq_toNat_cond, if_pos (by omega)]

theorem getLsbD_selectBit (k : Socket) (b : Nat) (hb : b < 32) :
    (selectBit k).getLsbD b = decide (k.state = .ready ∧ selectable k.descriptor ∧ k.descriptor.toNat = b) := by
  unfold selectBit
  split
  · next h =>
    have hd := (selectable_iff _).1 h.2
    simp only [BitVec.getLsbD_shiftLeft, BitVec.getLsbD_one, h.1, h.2]
    by_cases he : k.descriptor.toNat = b
    · subst he; simp [hb]
    · simp [he]; omega
  · next h =>
    have : ¬(k.state = .ready ∧ selectable k.descriptor ∧ k.descriptor.toNat = b) := fun hc => h ⟨hc.1, hc.2.1⟩
    simp [this]

theorem getLsbD_selectMask (table : List Socket) (b : Nat) (hb : b < 32) :
    (selectMask table).getLsbD b = true ↔
      ∃ k ∈ table, k.state = .ready ∧ selectable k.descriptor ∧ k.descriptor.toNat = b := by
  suffices h : ∀ m : Word32, (table.foldl (fun mask k => mask ||| selectBit k) m).getLsbD b = true ↔
      m.getLsbD b = true ∨ ∃ k ∈ table, k.state = .ready ∧ selectable k.descriptor ∧ k.descriptor.toNat = b by
    simpa [selectMask] using h 0
  induction table with
  | nil => simp
  | cons k rest ih =>
    intro m
    rw [List.foldl_cons, ih, BitVec.getLsbD_or, getLsbD_selectBit k b hb]
    simp [or_assoc]

/-- Everything the aggregated select can do: nothing, or ISSUE_COMMAND with the mask, outstanding when accepted. -/
theorem smSelect_eq (s : State) :
    smSelect s =
      if s.sm.selectPending = false ∧ driverFree s ∧ selectMask s.sm.table ≠ 0 then
        let r := issueCommand s.cfg.opcSelect (argsSelect s.cfg.codec (selectMask s.sm.table)) s
        match r.2 with
        | .ok => setSelectPending true r.1
        | .err _ => r.1
      else s := by
  unfold smSelect
  by_cases h : s.sm.selectPending = false ∧ driverFree s = true
  · rw [if_pos h]
    by_cases hm : selectMask s.sm.table = 0
    · rw [if_pos hm, if_neg (by simp [hm])]
    · rw [if_neg hm, if_pos ⟨h.1, h.2, hm⟩]
      dsimp only
      split <;> rename_i heq <;> rw [heq]
  · rw [if_neg h, if_neg fun hc => h ⟨hc.1, hc.2.1⟩]

/-! ### Replies (R202 to R207) -/

/-- A reply changes the socket that was current when that is in the state expected, and no other. -/
theorem replyTo_eq (cur : Option Nat) (expected : SockState) (f : Socket → Socket) (s : State) :
    (∀ i k, cur = some i → s.sm.table[i]? = some k → k.state = expected →
      replyTo cur expected f s = { s with sm := { s.sm with table := s.sm.table.set i (f k) } }) ∧
    ((∀ i k, cur = some i → s.sm.table[i]? = some k → k.state ≠ expected) → replyTo cur expected f s = s) := by
  constructor
  · rintro i k rfl hk he
    unfold replyTo socketAt
    simp only [hk, he, if_true]
    exact updateSocket_eq _ _ _ _ hk
  · intro h
    unfold replyTo socketAt
    cases cur with
    | none => rfl
    | some i =>
      cases hk : s.sm.table[i]? with
      | none => simp [hk]
      | some k => simp [hk, h i k rfl hk]

theorem replyTo_cfg (cur : Option Nat) (expected : SockState) (f : Socket → Socket) (s : State) :
    (replyTo cur expected f s).cfg = s.cfg := by
  unfold replyTo
  split
  · rfl
  · split
    · rfl
    · split <;> rfl

/-- The replies of the optional branch: one per opcode, none for another opcode (R207). -/
theorem replyServer_eq (opcode : Opcode) (cur : Option Nat) (s : State)
    (hd : s.cfg.opcBind ≠ s.cfg.opcListen ∧ s.cfg.opcBind ≠ s.cfg.opcAccept ∧ s.cfg.opcListen ≠ s.cfg.opcAccept) :
    replyServer opcode cur s =
      if opcode = s.cfg.opcBind then replyTo cur .binding (fun k => { k with state := .bound }) s
      else if opcode = s.cfg.opcListen then replyTo cur .listening (fun k => { k with state := .accepting }) s
      else if opcode = s.cfg.opcAccept then replyTo cur .accepting (fun k => { k with state := .ready }) s
      else s := by
  unfold replyServer
  by_cases h1 : opcode = s.cfg.opcBind
  · subst h1; simp [replyTo_cfg, hd.1, hd.2.1]
  · by_cases h2 : opcode = s.cfg.opcListen
    · subst h2; simp [h1, replyTo_cfg, hd.2.2]
    · simp [h1, h2]

end Sys2Proof.Machine
end

