-- ==== Sys2Proof/Laws/Step.lean ====
section
/-! SUPPORT. Once, everything a step can do (R12): nothing, an operation run in the state with the environment moved on,
an edge kept or dropped, or a refusal; and which operations an agent causes. -/

namespace Sys2Proof.Machine

/-- A property of every agent's operation, one case for each. -/
theorem byAgent_cases {P : Instr → Prop} (start : P .start) (issueCommand : ∀ opcode args, P (.issueCommand opcode args))
    (issueData : ∀ dopcode args data, P (.issueData dopcode args data)) (poll : ∀ dt, P (.poll dt))
    (wlanConnect : P .wlanConnect) (getWlanStatus : P .getWlanStatus) (getBuffers : P .getBuffers)
    (getIpConfig : P .getIpConfig) (sockAdd : ∀ family type protocol address, P (.sockAdd family type protocol address))
    (sockClose : ∀ slot, P (.sockClose slot)) (sockRecv : ∀ slot length, P (.sockRecv slot length))
    (sendTo : ∀ slot data address, P (.sendTo slot data address)) (onInterrupt : P .onInterrupt)
    (onTransportComplete : ∀ rx, P (.onTransportComplete rx)) (i : Instr) (h : byAgent i = true) : P i := by
  cases i <;> first
    | exact absurd h Bool.false_ne_true
    | apply_assumption

/-- The state an operation runs in differs in the environment only. -/
theorem nextEvent_run {s u : State} {i : Instr} (h : nextEvent s = .run i u) : ∃ e, u = { s with env := e } := by
  unfold nextEvent at h
  split at h
  · cases h; exact ⟨s.env, rfl⟩
  · split at h
    · cases h; exact ⟨_, rfl⟩
    · unfold scheduled at h
      split at h
      · cases h
      · split at h
        · cases h; exact ⟨_, rfl⟩
        · cases h
      · unfold runDecoded at h; split at h <;> cases h; exact ⟨_, rfl⟩
      · unfold runDecoded at h; split at h <;> cases h; exact ⟨_, rfl⟩

/-- An edge that arrives while the line is disabled touches the environment only (R236). -/
theorem nextEvent_masked {s u : State} (h : nextEvent s = .masked u) : ∃ e, u = { s with env := e } := by
  unfold nextEvent at h
  split at h
  · cases h
  · split at h
    · cases h
    · unfold scheduled at h
      split at h
      · cases h
      · split at h
        · cases h
        · cases h; exact ⟨_, rfl⟩
      · unfold runDecoded at h; split at h <;> cases h
      · unfold runDecoded at h; split at h <;> cases h

/-- After an operation: its next state, but for the schedule when the operation was held. -/
theorem settle_next {l : List Stimulus} {o : Outcome} {t : State} (h : settle l o = .next t) :
    ∃ u, o = .next u ∧
      (t = u ∨ u.result = .held ∧ t = { u with env := { u.env with schedule := heldSchedule l } }) := by
  unfold settle at h
  split at h
  · next u =>
    refine ⟨u, rfl, ?_⟩
    split at h
    · next hh => cases h; exact .inr ⟨hh, rfl⟩
    · cases h; exact .inl rfl
  · next hne => exact absurd h (by cases o <;> simp_all)

/-- Everything a step that answers a next state can do. -/
theorem step_cases {s t : State} (h : step s = .next t) :
    (∃ e, t = { s with env := e }) ∨
      ∃ i e u f, nextEvent s = .run i { s with env := e } ∧ exec i { s with env := e } = .next u ∧
        t = { u with env := f } := by
  unfold step at h
  split at h
  · cases h; exact .inl ⟨s.env, rfl⟩
  · next i u he =>
    obtain ⟨e, rfl⟩ := nextEvent_run he
    obtain ⟨v, hv, ht⟩ := settle_next h
    refine .inr ⟨i, e, v, t.env, he, hv, ?_⟩
    rcases ht with rfl | ⟨-, rfl⟩ <;> rfl
  · next u he =>
    cases h
    exact .inl (nextEvent_masked he)
  · cases h

/-- When everything scheduled is an agent's, an agent's operation runs, and what is left is an agent's too. -/
theorem nextEvent_byAgent {s u : State} {i : Instr} (ha : agentsOnly s = true) (h : nextEvent s = .run i u) :
    byAgent i = true ∧ agentsOnly u = true := by
  unfold nextEvent at h
  split at h
  · cases h; exact ⟨rfl, ha⟩
  · split at h
    · cases h; exact ⟨rfl, ha⟩
    · unfold scheduled at h
      unfold agentsOnly at ha
      split at h
      · cases h
      · next heq =>
        rw [heq] at ha
        simp only [List.all_cons, Bool.and_eq_true] at ha
        split at h
        · cases h; exact ⟨rfl, ha.2⟩
        · cases h
      · next op irq rest heq =>
        rw [heq] at ha
        simp only [List.all_cons, Bool.and_eq_true, stimulusByAgent] at ha
        unfold runDecoded at h
        split at h <;> cases h
        next hd =>
          rw [hd] at ha
          exact ⟨ha.1, ha.2⟩
      · next heq =>
        rw [heq] at ha
        simp [stimulusByAgent] at ha

/-- A step with only agents' operations scheduled leaves only agents' operations scheduled. -/
theorem step_agentsOnly {s t : State} (ha : agentsOnly s = true) (h : step s = .next t) : agentsOnly t = true := by
  unfold step at h
  split at h
  · cases h; exact ha
  · next i u he =>
    obtain ⟨-, hu⟩ := nextEvent_byAgent ha he
    obtain ⟨v, hv, ht⟩ := settle_next h
    have hvs : v.env.schedule = u.env.schedule := (exec_moves _ _ _ hv).schedule
    rcases ht with rfl | ⟨-, rfl⟩
    · unfold agentsOnly at hu ⊢; rwa [hvs]
    · unfold agentsOnly at ha ⊢
      show (heldSchedule s.env.schedule).all stimulusByAgent = true
      cases hs : s.env.schedule with
      | nil => rfl
      | cons x rest =>
        rw [hs] at ha
        cases x <;> exact ha
  · next u he =>
    cases h
    unfold nextEvent at he
    split at he
    · cases he
    · split at he
      · cases he
      · unfold scheduled at he
        unfold agentsOnly at ha ⊢
        split at he
        · cases he
        · next heq =>
          rw [heq] at ha
          simp only [List.all_cons, Bool.and_eq_true] at ha
          split at he
          · cases he
          · cases he; exact ha.2
        · unfold runDecoded at he; split at he <;> cases he
        · unfold runDecoded at he; split at he <;> cases he
  · cases h

end Sys2Proof.Machine
end

