-- ==== Sys2Proof/Tests/Slice0.lean ====
section
/-! SUPPORT. The model's own tests: ill-formed terms refused, an encoding of every operation decoded (written out from
R81 to R84, R88, R89, R91 and the vectors of 95_test_vectors), single steps from those vectors, and for every statement
with hypotheses a state and operands that meet them. -/

namespace Sys2Proof.Tests

open Sys2Proof Sys2Proof.Machine Sys2Proof.Spec

/-! ### Helpers -/

def bytes (l : List Nat) : List Byte := l.map (BitVec.ofNat 8)

/-- The next state of an operation, if it has one. -/
def after (i : Instr) (s : State) : Option State :=
  match exec i s with
  | .next t => some t
  | _ => none

def afterStep (s : State) : Option State :=
  match step s with
  | .next t => some t
  | _ => none

def faultOf (o : Host.Outcome State Fault Refusal) : Option Fault :=
  match o with
  | .fault f => some f
  | _ => none

def resultOf (i : Instr) (s : State) : Option OpResult := (after i s).map (·.result)

/-- The first `n` bytes of TX after an operation. -/
def txOf (i : Instr) (s : State) (n : Nat) : Option (List Byte) := (after i s).map fun t => memReadBytes t.tx 0 n

/-- Reset, in another state of the sequencer, with the lines R33 gives it and a command pending or not. -/
def inState (d : DrvState) (pending : Option Opcode) : State :=
  { State.reset with drv := { State.reset.drv with
    state := d
    pendingCommand := pending
    cs := chipSelected d
    intEn := !(lineMasked d)
    chipEn := true } }

def idle : State := inState .idle none

def asserted (s : State) : State := { s with env := { s.env with level := .asserted } }

def withTable (l : List Socket) (s : State) : State := { s with sm := { s.sm with table := l } }

def withCurrent (cur : Option Slot) (s : State) : State := { s with sm := { s.sm with current := cur } }

def withXfer (x : Xfer) (s : State) : State := { s with drv := { s.drv with xfer := some x } }

def withParams (f : Params → Params) (s : State) : State := { s with cfg := f s.cfg }

def scheduled (l : List Stimulus) (s : State) : State := { s with env := { s.env with schedule := l } }

/-- A stream socket. -/
def sock (state : SockState) (d : Word32) : Socket := ⟨state, d, 2, 1, 6, bytes [9], 0, false, 0, 0⟩

/-- RX holds a received packet with that payload (R67). -/
def received (payload : List Nat) (s : State) : State :=
  writeRx 0 (bytes ([0x02, payload.length / 256, payload.length, 0, 0] ++ payload)) s

/-- A packet is ready for dispatch. -/
def ready (payload : List Nat) (pending : Option Opcode) : State := received payload (inState .eventReady pending)

/-! ### Ill-formed terms -/

theorem test_params_default : defaultParams.wf = true := by decide

theorem test_params_refused_sizes :
    ({ defaultParams with bufSize := 1699 } : Params).wf = false ∧
    ({ defaultParams with bufSize := 65536 } : Params).wf = false ∧
    ({ defaultParams with connectRetryTimeout := 0 } : Params).wf = false := by decide

theorem test_params_refused_start_args :
    ({ defaultParams with startArgs := List.replicate 256 0 } : Params).wf = false := by decide +kernel

theorem test_params_refused_clashes :
    ({ defaultParams with spiOpRead := 0x01#8 } : Params).wf = false ∧
    ({ defaultParams with tagEvent := 0x02#8 } : Params).wf = false ∧
    ({ defaultParams with opcRecv := 0x1001#16 } : Params).wf = false ∧
    ({ defaultParams with evCloseWait := 0x8010#16 } : Params).wf = false := by decide

theorem test_params_refused_threshold :
    ({ defaultParams with opcClose := 0x4100#16 } : Params).wf = false ∧
    ({ defaultParams with evDhcp := 0x40FF#16 } : Params).wf = false ∧
    ({ defaultParams with evCloseWait := 0x40FF#16 } : Params).wf = false := by decide

theorem test_args_refused :
    Instr.wf defaultParams (.cmdSocket (List.replicate 256 0)) = false ∧
    Instr.wf defaultParams (.replyClose (List.replicate 256 0)) = false ∧
    Instr.wf defaultParams (.cmdHdr 0 (List.replicate 256 0)) = false ∧
    Instr.wf defaultParams (.evDhcp (List.replicate 256 0)) = false ∧
    Instr.wf defaultParams (.dataIn 0 (List.replicate 256 0) []) = false := by decide +kernel

theorem test_data_refused :
    Instr.wf { defaultParams with dataLenCountsArgs := true } (.dataSendto (bytes [0]) (List.replicate 65535 0)) =
      false := by decide +kernel

theorem test_event_rows_refused :
    Instr.wf defaultParams (.evUnsolicitedOther 0x40FF#16 []) = false ∧
    Instr.wf defaultParams (.evUnsolicitedOther 0x8010#16 []) = false ∧
    Instr.wf defaultParams (.evUnsolicitedOther 0x8800#16 []) = false ∧
    Instr.wf defaultParams (.replyOther 0x4100#16 []) = false ∧
    Instr.wf defaultParams (.replyOther 0x1001#16 []) = false ∧
    Instr.wf defaultParams (.replyUnexpected 0x4100#16 []) = false := by decide

theorem test_packet_rows_refused :
    Instr.wf defaultParams (.tagUnrecognised 0x04#8) = false ∧
    Instr.wf defaultParams (.tagUnrecognised 0x02#8) = false ∧
    Instr.wf defaultParams (.packetMalformed (bytes [4, 9, 0, 0])) = false ∧
    Instr.wf defaultParams (.packetMalformed (bytes [2, 0x85, 0, 0, 0])) = false ∧
    Instr.wf defaultParams (.packetMalformed (bytes [7])) = false := by decide

theorem test_operands_refused :
    Instr.wf defaultParams (.frameTransport 1 1695) = false ∧
    Instr.wf defaultParams (.onTransportCompleteSendingCommand 1701) = false ∧
    Instr.wf defaultParams (.onTransportCompleteReadingPayload 1696) = false ∧
    Instr.wf defaultParams (.dispatchUnsolicited 0x40FF#16 []) = false ∧
    Instr.wf defaultParams (.dispatchMatchingReply 0x4100#16 []) = false ∧
    Instr.wf defaultParams (.sockData [] 65536) = false := by decide

theorem test_received_bytes_refused :
    Instr.wf { defaultParams with bufSize := 1700 } (.onTransportComplete (List.replicate 1696 0)) = false := by
  decide +kernel

theorem test_slots_refused :
    Instr.wf defaultParams (.sockIssue 8 0 []) = false ∧
    Instr.wf defaultParams (.smPollInit 8) = false ∧
    Instr.wf defaultParams (.smPollOtherStates 8) = false ∧
    Instr.wf defaultParams (.sockReplySocket [] (some 8)) = false ∧
    Instr.wf defaultParams (.sockReplyServer 0x1001#16 [] none) = false := by decide

/-! ### Decoding: a word of every operation -/

/-- F1, F13 and R81: transport headers; R84: the padding byte. -/
theorem test_decode_transport :
    decodeWire defaultParams none .txHeader (bytes [0x01, 0x01, 0x23, 0, 0]) = .instr (.xportHdrWrite 0x0123#16) ∧
    decodeWire defaultParams none .txHeader (bytes [0x03, 0, 0, 0, 0]) = .instr .xportHdrRead ∧
    decodeWire defaultParams none .rxHeader (bytes [0x02, 0x00, 0x09, 0x55, 0xAA]) =
      .instr (.xportHdrReceived 2 9 0x55#8 0xAA#8) ∧
    decodeWire { defaultParams with rxLenOffset := .three } none .rxHeader (bytes [0x02, 0x55, 0xAA, 0x00, 0x05]) =
      .instr (.xportHdrReceived 2 5 0x55#8 0xAA#8) ∧
    decodeWire defaultParams none .txPad (bytes [0x00]) = .instr .pad := by decide

/-- R82, R83 by the format alone: F5's header, P5, F10, P11. -/
theorem test_decode_formats :
    decodeWire defaultParams none .txFormat (bytes [0x01, 0x34, 0x12, 0x02, 0x5A, 0x5B]) =
      .instr (.cmdHdr 0x1234#16 (bytes [0x5A, 0x5B])) ∧
    decodeWire defaultParams none .rxFormat (bytes [0x04, 0x09, 0x00, 0x05, 0x00, 0x03, 0, 0, 0]) =
      .instr (.eventHdr 0x0009#16 (bytes [0, 3, 0, 0, 0])) ∧
    decodeWire defaultParams none .txFormat (bytes [0x02, 0x83, 0x00, 0x01, 0x00, 0xAA]) =
      .instr (.dataHdrOut 0x83#8 [] (bytes [0xAA])) ∧
    decodeWire defaultParams none .rxFormat (bytes [0x02, 0x85, 0x04, 0x03, 0x00, 7, 0, 0, 0, 0x61, 0x62, 0x63]) =
      .instr (.dataHdrIn 0x85#8 (bytes [7, 0, 0, 0]) (bytes [0x61, 0x62, 0x63])) := by decide

/-- R88's commands, one argument byte each: tag 01, opcode low byte first, count 1. -/
theorem test_decode_commands :
    decodeWire defaultParams none .txPacket (bytes [0x01, 0x00, 0x40, 0x01, 0x5A]) = .instr (.cmdStart (bytes [0x5A])) ∧
    decodeWire defaultParams none .txPacket (bytes [0x01, 0x09, 0x00, 0x01, 0x5A]) =
      .instr (.cmdStatusGet (bytes [0x5A])) ∧
    decodeWire defaultParams none .txPacket (bytes [0x01, 0x0B, 0x40, 0x01, 0x5A]) =
      .instr (.cmdBufferSize (bytes [0x5A])) ∧
    decodeWire defaultParams none .txPacket (bytes [0x01, 0x01, 0x00, 0x01, 0x5A]) =
      .instr (.cmdWlanConnect (bytes [0x5A])) ∧
    decodeWire defaultParams none .txPacket (bytes [0x01, 0x01, 0x10, 0x01, 0x5A]) = .instr (.cmdSocket (bytes [0x5A])) ∧
    decodeWire defaultParams none .txPacket (bytes [0x01, 0x02, 0x10, 0x01, 0x5A]) = .instr (.cmdBind (bytes [0x5A])) ∧
    decodeWire defaultParams none .txPacket (bytes [0x01, 0x04, 0x10, 0x01, 0x5A]) = .instr (.cmdRecv (bytes [0x5A])) ∧
    decodeWire defaultParams none .txPacket (bytes [0x01, 0x05, 0x10, 0x01, 0x5A]) = .instr (.cmdAccept (bytes [0x5A])) ∧
    decodeWire defaultParams none .txPacket (bytes [0x01, 0x06, 0x10, 0x01, 0x5A]) = .instr (.cmdListen (bytes [0x5A])) ∧
    decodeWire defaultParams none .txPacket (bytes [0x01, 0x07, 0x10, 0x01, 0x5A]) = .instr (.cmdConnect (bytes [0x5A])) ∧
    decodeWire defaultParams none .txPacket (bytes [0x01, 0x08, 0x10, 0x01, 0x5A]) = .instr (.cmdSelect (bytes [0x5A])) ∧
    decodeWire defaultParams none .txPacket (bytes [0x01, 0x0B, 0x10, 0x01, 0x5A]) =
      .instr (.cmdClose (bytes [0x5A])) := by decide

/-- R88's replies, while their command is pending: tag 04. -/
theorem test_decode_replies :
    decodeWire defaultParams (some 0x4000#16) .rxPacket (bytes [0x04, 0x00, 0x40, 0x01, 0x5A]) =
      .instr (.replyStart (bytes [0x5A])) ∧
    decodeWire defaultParams (some 0x0009#16) .rxPacket (bytes [0x04, 0x09, 0x00, 0x01, 0x5A]) =
      .instr (.replyStatusGet (bytes [0x5A])) ∧
    decodeWire defaultParams (some 0x400B#16) .rxPacket (bytes [0x04, 0x0B, 0x40, 0x01, 0x5A]) =
      .instr (.replyBufferSize (bytes [0x5A])) ∧
    decodeWire defaultParams (some 0x0001#16) .rxPacket (bytes [0x04, 0x01, 0x00, 0x01, 0x5A]) =
      .instr (.replyWlanConnect (bytes [0x5A])) ∧
    decodeWire defaultParams (some 0x1001#16) .rxPacket (bytes [0x04, 0x01, 0x10, 0x01, 0x5A]) =
      .instr (.replySocket (bytes [0x5A])) ∧
    decodeWire defaultParams (some 0x1002#16) .rxPacket (bytes [0x04, 0x02, 0x10, 0x01, 0x5A]) =
      .instr (.replyBind (bytes [0x5A])) ∧
    decodeWire defaultParams (some 0x1004#16) .rxPacket (bytes [0x04, 0x04, 0x10, 0x01, 0x5A]) =
      .instr (.replyRecv (bytes [0x5A])) ∧
    decodeWire defaultParams (some 0x1005#16) .rxPacket (bytes [0x04, 0x05, 0x10, 0x01, 0x5A]) =
      .instr (.replyAccept (bytes [0x5A])) ∧
    decodeWire defaultParams (some 0x1006#16) .rxPacket (bytes [0x04, 0x06, 0x10, 0x01, 0x5A]) =
      .instr (.replyListen (bytes [0x5A])) ∧
    decodeWire defaultParams (some 0x1007#16) .rxPacket (bytes [0x04, 0x07, 0x10, 0x01, 0x5A]) =
      .instr (.replyConnect (bytes [0x5A])) ∧
    decodeWire defaultParams (some 0x1008#16) .rxPacket (bytes [0x04, 0x08, 0x10, 0x01, 0x5A]) =
      .instr (.replySelect (bytes [0x5A])) ∧
    decodeWire defaultParams (some 0x100B#16) .rxPacket (bytes [0x04, 0x0B, 0x10, 0x01, 0x5A]) =
      .instr (.replyClose (bytes [0x5A])) := by decide

/-- R89: events and what the dispatcher meets besides (E3, E17, E5, E5a, E9, E11, E14, P11), and F10's data frame. -/
theorem test_decode_events :
    decodeWire defaultParams none .rxPacket (bytes [0x04, 0x10, 0x80, 0x00]) = .instr (.evDhcp []) ∧
    decodeWire defaultParams none .rxPacket (bytes [0x04, 0x00, 0x88, 0x05, 0, 3, 0, 0, 0]) =
      .instr (.evCloseWait (bytes [0, 3, 0, 0, 0])) ∧
    decodeWire defaultParams none .rxPacket (bytes [0x04, 0x00, 0x41, 0x00]) =
      .instr (.evUnsolicitedOther 0x4100#16 []) ∧
    decodeWire defaultParams (some 0x40FF#16) .rxPacket (bytes [0x04, 0xFF, 0x40, 0x00]) =
      .instr (.replyOther 0x40FF#16 []) ∧
    decodeWire defaultParams (some 0x1007#16) .rxPacket (bytes [0x04, 0x01, 0x10, 0x00]) =
      .instr (.replyUnexpected 0x1001#16 []) ∧
    decodeWire defaultParams none .rxPacket (bytes [0x07, 0, 0, 0]) = .instr (.tagUnrecognised 0x07#8) ∧
    decodeWire defaultParams none .rxPacket (bytes [0x04, 0x09]) = .instr (.packetMalformed (bytes [0x04, 0x09])) ∧
    decodeWire defaultParams none .txPacket (bytes [0x02, 0x83, 0x00, 0x01, 0x00, 0xAA]) =
      .instr (.dataSendto [] (bytes [0xAA])) ∧
    decodeWire defaultParams none .rxPacket (bytes [0x02, 0x85, 0x04, 0x03, 0x00, 7, 0, 0, 0, 0x61, 0x62, 0x63]) =
      .instr (.dataIn 0x85#8 (bytes [7, 0, 0, 0]) (bytes [0x61, 0x62, 0x63])) := by decide

/-- R91: the framer's lines. -/
theorem test_decode_lines_framer :
    decodeLine ⟨"FRAME_TRANSPORT", [.num 1, .num 4]⟩ = .instr (.frameTransport 1 4) ∧
    decodeLine ⟨"FRAME_READ_HEADER", []⟩ = .instr .frameReadHeader ∧
    decodeLine ⟨"FRAME_COMMAND", [.num 0x4000, .bytes (bytes [0])]⟩ = .instr (.frameCommand 0x4000#16 (bytes [0])) ∧
    decodeLine ⟨"FRAME_DATA", [.num 0x83, .bytes [], .bytes (bytes [0xAA])]⟩ =
      .instr (.frameData 0x83#8 [] (bytes [0xAA])) ∧
    decodeLine ⟨"PARSE_TRANSPORT", []⟩ = .instr .parseTransport ∧
    decodeLine ⟨"PARSE_EVENT_HEADER", []⟩ = .instr .parseEventHeader ∧
    decodeLine ⟨"PARSE_DATA_HEADER", []⟩ = .instr .parseDataHeader := by decide

/-- R91: the sequencer's lines. -/
theorem test_decode_lines_sequencer :
    decodeLine ⟨"START", []⟩ = .instr .start ∧
    decodeLine ⟨"ISSUE_COMMAND", [.num 0x0009, .bytes []]⟩ = .instr (.issueCommand 0x0009#16 []) ∧
    decodeLine ⟨"ISSUE_DATA", [.num 0x83, .bytes [], .bytes (bytes [0xAA])]⟩ =
      .instr (.issueData 0x83#8 [] (bytes [0xAA])) ∧
    decodeLine ⟨"IRQ", []⟩ = .instr .onInterrupt ∧
    decodeLine ⟨"ON_INTERRUPT.CommandRequest", []⟩ = .instr .onInterruptCommandRequest ∧
    decodeLine ⟨"ON_INTERRUPT.DataRequest", []⟩ = .instr .onInterruptDataRequest ∧
    decodeLine ⟨"ON_INTERRUPT.StartSequence|AwaitingReply|Idle|ReceivingData", []⟩ = .instr .onInterruptReadHeader ∧
    decodeLine ⟨"ON_INTERRUPT.Init_SendingCommand_SendingData_ReadingHead", []⟩ = .instr .onInterruptUnhandled := by
  decide

/-- R91: the completion's lines. -/
theorem test_decode_lines_completion :
    decodeLine ⟨"XFER_DONE", [.bytes (bytes [2, 0, 9, 0, 0])]⟩ = .instr (.onTransportComplete (bytes [2, 0, 9, 0, 0])) ∧
    decodeLine ⟨"ON_TRANSPORT_COMPLETE.SendingCommand", [.num 10]⟩ = .instr (.onTransportCompleteSendingCommand 10) ∧
    decodeLine ⟨"ON_TRANSPORT_COMPLETE.SendingData", [.num 12]⟩ = .instr (.onTransportCompleteSendingData 12) ∧
    decodeLine ⟨"ON_TRANSPORT_COMPLETE.ReadingHeader", []⟩ = .instr .onTransportCompleteReadingHeader ∧
    decodeLine ⟨"ON_TRANSPORT_COMPLETE.ReadingPayload", [.num 9]⟩ = .instr (.onTransportCompleteReadingPayload 9) ∧
    decodeLine ⟨"finish_receive", []⟩ = .instr .finishReceive ∧
    decodeLine ⟨"ON_TRANSPORT_COMPLETE.no_transaction", []⟩ = .instr .onTransportCompleteNoTransaction := by decide

/-- R91: the polling loop's and the accessors' lines. -/
theorem test_decode_lines_poll :
    decodeLine ⟨"POLL", [.num 1]⟩ = .instr (.poll 1) ∧
    decodeLine ⟨"POLL.P1_dispatch", []⟩ = .instr .pollDispatch ∧
    decodeLine ⟨"POLL.P2_drain_latched_interrupt", []⟩ = .instr .pollDrainLatchedInterrupt ∧
    decodeLine ⟨"POLL.P3_status_timer", [.num 2]⟩ = .instr (.pollStatusTimer 2) ∧
    decodeLine ⟨"POLL.P4_socket_manager", [.num 3]⟩ = .instr (.pollSocketManager 3) ∧
    decodeLine ⟨"set_state", [.state .receivingData]⟩ = .instr (.setState .receivingData) ∧
    decodeLine ⟨"WLAN_CONNECT", []⟩ = .instr .wlanConnect ∧
    decodeLine ⟨"GET_WLAN_STATUS", []⟩ = .instr .getWlanStatus ∧
    decodeLine ⟨"GET_BUFFERS", []⟩ = .instr .getBuffers ∧
    decodeLine ⟨"GET_IP_CONFIG", []⟩ = .instr .getIpConfig := by decide

/-- R91: the dispatcher's lines. -/
theorem test_decode_lines_dispatcher :
    decodeLine ⟨"DISPATCH", []⟩ = .instr .dispatch ∧
    decodeLine ⟨"DISPATCH.resume", []⟩ = .instr .dispatchResume ∧
    decodeLine ⟨"DISPATCH.data", []⟩ = .instr .dispatchData ∧
    decodeLine ⟨"DISPATCH.event", []⟩ = .instr .dispatchEvent ∧
    decodeLine ⟨"DISPATCH.unsolicited", [.num 0x8010, .bytes []]⟩ = .instr (.dispatchUnsolicited 0x8010#16 []) ∧
    decodeLine ⟨"DISPATCH.matching_reply", [.num 0x0009, .bytes []]⟩ =
      .instr (.dispatchMatchingReply 0x0009#16 []) := by decide

/-- R91: the socket table's and the socket manager's lines. -/
theorem test_decode_lines_sockets :
    decodeLine ⟨"SOCK_ADD", [.num 2, .num 1, .num 6, .bytes (bytes [9])]⟩ = .instr (.sockAdd 2 1 6 (bytes [9])) ∧
    decodeLine ⟨"SOCK_LOOKUP", [.num 0xFFFFFFFF]⟩ = .instr (.sockLookup 0xFFFFFFFF#32) ∧
    decodeLine ⟨"sock_issue", [.num 1, .num 0x1001, .bytes []]⟩ = .instr (.sockIssue 1 0x1001#16 []) ∧
    decodeLine ⟨"SM_POLL", [.num 1]⟩ = .instr (.smPoll 1) ∧
    decodeLine ⟨"SM_POLL.Init", [.num 0]⟩ = .instr (.smPollInit 0) ∧
    decodeLine ⟨"SM_POLL.Created", [.num 1]⟩ = .instr (.smPollCreated 1) ∧
    decodeLine ⟨"SM_POLL.Failed", [.num 2, .num 3]⟩ = .instr (.smPollFailed 2 3) ∧
    decodeLine ⟨"SM_POLL.Ready", [.num 3]⟩ = .instr (.smPollReady 3) ∧
    decodeLine ⟨"SM_POLL.CloseWait", [.num 4]⟩ = .instr (.smPollCloseWait 4) ∧
    decodeLine ⟨"SM_POLL.other_states", [.num 5]⟩ = .instr (.smPollOtherStates 5) ∧
    decodeLine ⟨"SM_POLL.select", []⟩ = .instr .smPollSelect := by decide

/-- R91: the replies' lines. -/
theorem test_decode_lines_replies :
    decodeLine ⟨"SOCK_REPLY.SOCKET", [.bytes [], .cur (some 1)]⟩ = .instr (.sockReplySocket [] (some 1)) ∧
    decodeLine ⟨"SOCK_REPLY.CONNECT", [.bytes [], .cur (some 1)]⟩ = .instr (.sockReplyConnect [] (some 1)) ∧
    decodeLine ⟨"SOCK_REPLY.CLOSE", [.bytes [], .cur (some 1)]⟩ = .instr (.sockReplyClose [] (some 1)) ∧
    decodeLine ⟨"SOCK_REPLY.SELECT", [.bytes [], .cur none]⟩ = .instr (.sockReplySelect [] none) ∧
    decodeLine ⟨"SOCK_REPLY.RECV", [.bytes [], .cur (some 1)]⟩ = .instr (.sockReplyRecv [] (some 1)) ∧
    decodeLine ⟨"SOCK_REPLY.BIND|LISTEN|ACCEPT", [.num 0x1006, .bytes [], .cur (some 1)]⟩ =
      .instr (.sockReplyServer 0x1006#16 [] (some 1)) := by decide

/-- R91: the routed lines and the application's operations on a socket; a receive length of any size (R211, log 30). -/
theorem test_decode_lines_routed :
    decodeLine ⟨"SOCK_CLOSE_WAIT", [.num 3]⟩ = .instr (.sockCloseWait 3) ∧
    decodeLine ⟨"SOCK_DATA", [.bytes (bytes [7, 0, 0, 0]), .num 3]⟩ = .instr (.sockData (bytes [7, 0, 0, 0]) 3) ∧
    decodeLine ⟨"SOCK_CLOSE", [.num 1]⟩ = .instr (.sockClose 1) ∧
    decodeLine ⟨"SOCK_RECV", [.num 1, .num 100]⟩ = .instr (.sockRecv 1 100) ∧
    decodeLine ⟨"SOCK_RECV", [.num 1, .num 0x100000000]⟩ = .instr (.sockRecv 1 0x100000000) ∧
    decodeLine ⟨"SEND_TO", [.num 1, .bytes (bytes [5]), .bytes (bytes [9])]⟩ =
      .instr (.sendTo 1 (bytes [5]) (bytes [9])) := by decide

/-- Each rejection, by its name. -/
theorem test_decode_rejects :
    decodeWire defaultParams none .txHeader (bytes [0x01, 0, 5, 0]) = .rejected .truncated ∧
    decodeWire defaultParams none .txHeader (bytes [0x02, 0, 5, 0, 0]) = .rejected .unknownTransportType ∧
    decodeWire defaultParams none .txHeader (bytes [0x01, 0, 5, 0, 1]) = .rejected .reservedNotZero ∧
    decodeWire defaultParams none .txHeader (bytes [0x03, 0, 1, 0, 0]) = .rejected .reservedNotZero ∧
    decodeWire defaultParams none .txPacket (bytes [0x04, 0x09, 0, 0]) = .rejected .unknownOutboundTag ∧
    decodeWire defaultParams none .rxFormat (bytes [0x01, 0x09, 0, 0]) = .rejected .unknownInboundTag ∧
    decodeWire defaultParams none .txPad (bytes [0x01]) = .rejected .notPadding ∧
    decodeLine ⟨"HALT", []⟩ = .rejected .unknownOperation ∧
    decodeLine ⟨"POLL", [.num 0x100000000]⟩ = .rejected .badOperands := by decide

/-- Rows 0, 1, 3, 9, 17, 32, 38 and 39 of spec/opcode_table.json by their own words. -/
theorem test_table_words :
    decodeTableWord 40 0x0101230000 = some (.xportHdrWrite 0x0123#16) ∧
    decodeTableWord 40 0x0300000000 = some .xportHdrRead ∧
    decodeTableWord 32 0x01000000 = some (.cmdHdr 0 []) ∧
    decodeTableWord 32 0x04004001 = some (.replyStart (bytes [0])) ∧
    decodeTableWord 32 0x04011000 = some (.replySocket []) ∧
    decodeTableWord 32 0x04108000 = some (.evDhcp []) ∧
    decodeTableWord 0 0 = some (.packetMalformed []) ∧
    decodeTableWord 40 0x0283010200 = some (.dataSendto (bytes [0]) (bytes [0, 0])) := by decide

/-- A table word is the very next thing that happens, from reset too. -/
theorem test_fetch_word :
    (afterStep (State.reset.withFetchWord 32 0x04004001)).map (fun t => (t.drv.state, t.drv.statEvents, t.result)) =
      some (.idle, 1, .verdict (.reply 0x4000#16)) := by decide

/-! ### The framer (95_test_vectors 2.1, 2.2) -/

theorem test_F1 : resultOf (.frameCommand 0x4000#16 (bytes [0])) State.reset = some (.length 10) ∧
    txOf (.frameCommand 0x4000#16 (bytes [0])) State.reset 10 =
      some (bytes [0x01, 0x00, 0x05, 0x00, 0x00, 0x01, 0x00, 0x40, 0x01, 0x00]) := by decide

theorem test_F4 : txOf (.frameCommand 0x100B#16 (bytes [3, 0, 0, 0])) State.reset 14 =
    some (bytes [0x01, 0x00, 0x09, 0x00, 0x00, 0x01, 0x0B, 0x10, 0x04, 0x03, 0, 0, 0, 0]) := by decide

theorem test_F5_F6 :
    txOf (.cmdHdr 0x1234#16 (List.replicate 255 0x5A#8)) State.reset 9 =
      some (bytes [0x01, 0x01, 0x03, 0x00, 0x00, 0x01, 0x34, 0x12, 0xFF]) ∧
    resultOf (.cmdHdr 0x1234#16 (List.replicate 254 0x5A#8)) State.reset = some (.length 264) := by decide +kernel

theorem test_F7 : after (.frameCommand 0x1234#16 (List.replicate 256 0x5A#8)) idle =
    some { idle with result := .raised .invalid } := by decide +kernel

theorem test_F10 : txOf (.frameData 0x83#8 [] (bytes [0xAA])) State.reset 12 =
      some (bytes [0x01, 0x00, 0x07, 0x00, 0x00, 0x02, 0x83, 0x00, 0x01, 0x00, 0xAA, 0x00]) ∧
    txOf (.dataHdrOut 0x83#8 [] []) State.reset 10 =
      some (bytes [0x01, 0x00, 0x05, 0x00, 0x00, 0x02, 0x83, 0x00, 0x00, 0x00]) := by decide

theorem test_F12_too_long : resultOf (.frameData 0x83#8 (bytes [1, 2, 3, 4]) (List.replicate 1686 0)) State.reset =
    some (.raised .invalid) := by decide +kernel

theorem test_F13 : txOf .frameReadHeader State.reset 5 = some (bytes [0x03, 0, 0, 0, 0]) ∧
    txOf .xportHdrRead State.reset 5 = some (bytes [0x03, 0, 0, 0, 0]) := by decide

theorem test_F14 : txOf (.frameTransport 0x01#8 0) State.reset 6 = some (bytes [0x01, 0x00, 0x01, 0, 0, 0]) ∧
    resultOf (.frameTransport 0x01#8 0) State.reset = some (.length 6) := by decide

/-- R84 and F2: padding a frame of nine bytes, its pad byte and its header. -/
theorem test_pad :
    ((after (.xportHdrWrite 4) (withParams (fun p => { p with padByte := 0x77#8 }) State.reset)).bind (after .pad)).map
      (fun t => (memReadBytes t.tx 0 10, t.drv.transmitLength)) =
    some (bytes [0x01, 0x00, 0x05, 0, 0, 0, 0, 0, 0, 0x77], 10#16) := by decide

theorem test_P2 : resultOf .parseTransport (writeRx 0 (bytes [2, 0, 0, 0, 5]) State.reset) = some (.transport 2 0) ∧
    resultOf .parseTransport
      (withParams (fun p => { p with rxLenOffset := .three }) (writeRx 0 (bytes [2, 0, 0, 0, 5]) State.reset)) =
      some (.transport 2 5) := by decide

theorem test_P4 : resultOf (.xportHdrReceived 0x7F#8 0xFFFF#16 0x55#8 0xAA#8) State.reset =
    some (.transport 0x7F#8 65535) := by decide

theorem test_P5_P9 :
    resultOf .parseEventHeader (ready [4, 9, 0, 5, 0, 3, 0, 0, 0] none) =
      some (.event (some ⟨4, 9, 5, bytes [0, 3, 0, 0, 0]⟩)) ∧
    resultOf .parseEventHeader (ready [4, 9, 0, 6, 0, 3, 0, 0, 0] none) = some (.event none) := by decide

theorem test_P11_P12 :
    resultOf .parseDataHeader (ready [2, 0x85, 4, 3, 0, 7, 0, 0, 0, 0x61, 0x62, 0x63] none) =
      some (.data (some ⟨2, 0x85#8, 4, bytes [7, 0, 0, 0], 3, bytes [0x61, 0x62, 0x63]⟩)) ∧
    resultOf .parseDataHeader (ready [2, 0x85, 4, 5, 0, 7, 0, 0, 0, 0x61, 0x62, 0x63] none) = some (.data none) := by
  decide

theorem test_P12b :
    resultOf .parseDataHeader (withParams (fun p => { p with dataLenCountsArgs := true })
      (ready [2, 0x85, 4, 7, 0, 7, 0, 0, 0, 0x61, 0x62, 0x63] none)) =
      some (.data (some ⟨2, 0x85#8, 4, bytes [7, 0, 0, 0], 3, bytes [0x61, 0x62, 0x63]⟩)) ∧
    resultOf .parseDataHeader (withParams (fun p => { p with dataLenCountsArgs := true })
      (ready [2, 0x85, 4, 3, 0, 7, 0, 0, 0, 0x61, 0x62, 0x63] none)) = some (.data none) := by decide

/-! ### The sequencer (2.3) -/

theorem test_Q1 : (after .start (asserted State.reset)).map (fun t => (t.drv.state, t.drv.statBytesTx, t.effects)) =
    some (.startSequence, 10, [.intEn false, .chipEn true, .irqLevel .asserted, .cs true, .delay 50,
      .obsCommand 0x4000#16, .xferBlocking .tx 10, .cs false, .obsTransition .init .startSequence, .intEn true]) := by
  decide

theorem test_start_holds : resultOf .start State.reset = some .held ∧
    resultOf (.cmdStart (bytes [0])) State.reset = some .held := by decide

theorem test_Q2 : after .start idle = some { idle with result := .raised .invalidState } := by decide

theorem test_Q3 : (after (.issueCommand 0x0009#16 []) idle).map (fun t => (t.drv.state, t.drv.pendingCommand,
      memReadBytes t.tx 0 10, t.effects)) =
    some (.commandRequest, some 0x0009#16, bytes [0x01, 0, 0x05, 0, 0, 0x01, 0x09, 0, 0, 0],
      [.intEn false, .irqLevel .idle, .obsCommand 0x0009#16, .obsTransition .idle .commandRequest, .cs true,
        .intEn true]) := by decide

theorem test_Q5 : after (.issueCommand 0x0009#16 []) (asserted idle) =
    some { asserted idle with
      effects := [.intEn false, .irqLevel .asserted, .intEn true]
      result := .raised .busy } := by decide

theorem test_Q8 : (after (.issueData 0x83#8 [] (bytes [0xAA])) idle).map (fun t => (t.drv.state, t.drv.pendingCommand,
      t.drv.statCommands, t.drv.transmitLength)) = some (.dataRequest, none, 0, 12#16) := by decide

theorem test_issueData_invalid :
    resultOf (.issueData 0x83#8 (bytes [0]) (List.replicate 1690 0)) idle = some (.raised .invalid) := by decide +kernel

theorem test_Q9 : resultOf .wlanConnect (inState .awaitingReply (some 9#16)) = some (.raised .invalid) ∧
    (after (.cmdWlanConnect (bytes [0xAA])) idle).map (·.drv.pendingCommand) = some (some 0x0001#16) := by decide

/-- R121: each command row issues its own opcode. -/
theorem test_command_rows :
    ([.cmdStatusGet [], .cmdBufferSize [], .cmdSocket [], .cmdBind [], .cmdRecv [], .cmdAccept [], .cmdListen [],
        .cmdConnect [], .cmdSelect [], .cmdClose []] : List Instr).map
      (fun i => (after i idle).bind (·.drv.pendingCommand)) =
    [some 0x0009#16, some 0x400B#16, some 0x1001#16, some 0x1002#16, some 0x1004#16, some 0x1005#16, some 0x1006#16,
      some 0x1007#16, some 0x1008#16, some 0x100B#16] := by decide

theorem test_cmdStart : (after (.cmdStart (bytes [7])) (asserted State.reset)).map (fun t => (t.drv.state, t.env.wireOut)) =
    some (.startSequence, [bytes [0x01, 0, 0x05, 0, 0, 0x01, 0x00, 0x40, 0x01, 0x07]]) := by decide

theorem test_dataSendto : (after (.dataSendto (bytes [1]) (bytes [2])) idle).map (fun t => (t.drv.state,
      memReadBytes t.tx 0 12)) =
    some (.dataRequest, bytes [0x01, 0, 0x07, 0, 0, 0x02, 0x83, 0x01, 0x01, 0x00, 0x01, 0x02]) := by decide

theorem test_Q10 : (after .onInterrupt { inState .commandRequest (some 9#16) with
      drv := { (inState .commandRequest (some 9#16)).drv with transmitLength := 10 } }).map
      (fun t => (t.drv.state, t.drv.statInterrupts, t.drv.xfer, t.effects)) =
    some (.sendingCommand, 1, some ⟨.tx, 10⟩,
      [.intEn false, .obsTransition .commandRequest .sendingCommand, .xfer .tx 10]) := by decide

theorem test_interrupt_rows :
    (after .onInterruptCommandRequest idle).map (·.drv.state) = some .sendingCommand ∧
    (after .onInterruptDataRequest idle).map (·.drv.state) = some .sendingData ∧
    (after .onInterruptReadHeader idle).map (fun t => (t.drv.state, memReadBytes t.tx 0 5, t.drv.xfer)) =
      some (.readingHeader, bytes [3, 0, 0, 0, 0], some ⟨.exchange, 5⟩) := by decide

theorem test_Q11 : (after (.onTransportComplete []) (withXfer ⟨.tx, 10⟩ (inState .sendingCommand (some 9#16)))).map
      (fun t => (t.drv.state, t.drv.xfer, t.drv.statSpiCompletions, t.drv.statBytesTx, t.effects)) =
    some (.awaitingReply, none, 1, 10, [.cs false, .obsTransition .sendingCommand .awaitingReply, .intEn true]) := by
  decide

theorem test_Q15 : (after (.onTransportComplete (bytes [2, 0, 9, 0, 0]))
      (withXfer ⟨.exchange, 5⟩ (inState .readingHeader none))).map
      (fun t => (t.drv.state, t.drv.statBytesRx, t.drv.xfer)) = some (.readingPayload, 5, some ⟨.rx, 9⟩) := by decide

theorem test_Q17 :
    faultOf (exec (.onTransportComplete (bytes [2, 0x06, 0xA0, 0, 0]))
      (withXfer ⟨.exchange, 5⟩ (inState .readingHeader none))) = some .rxOverflow ∧
    (after (.onTransportComplete (bytes [2, 0x06, 0x9F, 0, 0]))
      (withXfer ⟨.exchange, 5⟩ (inState .readingHeader none))).map (·.drv.xfer) = some (some ⟨.rx, 1695⟩) := by decide

theorem test_Q18 : (after (.onTransportComplete (bytes [4, 9, 0, 1, 7]))
      (withXfer ⟨.rx, 5⟩ (inState .readingPayload none))).map
      (fun t => (t.drv.state, memReadBytes t.rx 5 5, t.drv.statBytesRx)) =
    some (.eventReady, bytes [4, 9, 0, 1, 7], 5) := by decide

theorem test_completion_rows :
    (after (.onTransportCompleteSendingCommand 10) idle).map (fun t => (t.drv.state, t.drv.statBytesTx)) =
      some (.awaitingReply, 10) ∧
    (after (.onTransportCompleteSendingData 12) idle).map (fun t => (t.drv.state, t.drv.statBytesTx)) = some (.idle, 12) ∧
    (after (.onTransportCompleteReadingPayload 9) idle).map (fun t => (t.drv.state, t.drv.statBytesRx)) =
      some (.eventReady, 9) ∧
    (after .onTransportCompleteReadingHeader (ready [1, 2, 3] none)).map (·.drv.xfer) = some (some ⟨.rx, 3⟩) ∧
    (after .finishReceive idle).map (·.drv.state) = some .eventReady := by decide

theorem test_Q19 : (after .onInterrupt (inState .eventReady none)).map (fun t => (t.drv.statUnhandledInterrupts,
      t.drv.unhandledState, t.drv.interruptPending, t.effects)) = some (1, some .eventReady, true, []) ∧
    (after .onInterruptUnhandled State.reset).map (·.drv.unhandledState) = some (some .init) := by decide

theorem test_Q21 : after (.onTransportComplete (bytes [1])) idle = some { idle with result := .raised .invalidState } ∧
    after .onTransportCompleteNoTransaction idle = some { idle with result := .raised .invalidState } := by decide

theorem test_Q22_Q23 :
    (after (.poll 0) { idle with drv := { idle.drv with interruptPending := true } }).map
      (fun t => (t.drv.state, t.drv.interruptPending, t.drv.statInterrupts)) = some (.readingHeader, false, 0) ∧
    (after .pollDrainLatchedInterrupt { inState .commandRequest (some 9#16) with
      drv := { (inState .commandRequest (some 9#16)).drv with interruptPending := true } }).map
      (fun t => (t.drv.state, t.drv.interruptPending)) = some (.commandRequest, true) := by decide

theorem test_Q24_Q25 :
    (after (.pollStatusTimer 1) { idle with drv := { idle.drv with statusTimer := 4 } }).map
      (fun t => (t.drv.state, t.drv.statusTimer)) = some (.commandRequest, 0) ∧
    (after (.poll 1) (asserted { idle with drv := { idle.drv with statusTimer := 4 } })).map
      (fun t => (t.drv.state, t.drv.statusTimer)) = some (.idle, 5) := by decide

theorem test_Q28 : (after (.pollStatusTimer 5) { State.reset with
      drv := { State.reset.drv with statusTimer := 0xFFFFFFFE#32 } }).map (·.drv.statusTimer) = some 0xFFFFFFFF#32 := by
  decide

/-- R139: the socket manager runs only when the network is up. -/
theorem test_poll_socket_manager :
    (after (.pollSocketManager 1) (withTable [sock .init 0xFFFFFFFF#32] { idle with
      drv := { idle.drv with wlanStatus := 3, dhcpComplete := true } })).map (·.drv.pendingCommand) =
      some (some 0x1001#16) ∧
    (after (.pollSocketManager 1) (withTable [sock .init 0xFFFFFFFF#32] { idle with
      drv := { idle.drv with wlanStatus := 3 } })).map (·.drv.pendingCommand) = some none := by decide

theorem test_setState : (after (.setState .idle) idle).map (·.effects) = some [.obsTransition .idle .idle] := by decide

theorem test_accessors :
    resultOf .getWlanStatus { idle with drv := { idle.drv with wlanStatus := 3 } } = some (.wlanStatus 3) ∧
    resultOf .getBuffers { idle with drv := { idle.drv with buffersAvailable := 6 } } = some (.buffers 6) ∧
    resultOf .getIpConfig { idle with drv := { idle.drv with ipConfig := bytes [1] } } = some (.ipConfig (bytes [1])) := by
  decide

/-! ### The dispatcher (2.4) -/

theorem test_E1 : (after .dispatch (ready [4, 0, 0x40, 1, 0] (some 0x4000#16))).map (fun t => (t.drv.state,
      t.drv.pendingCommand, t.drv.statEvents, t.result)) = some (.idle, none, 1, .verdict (.reply 0x4000#16)) ∧
    resultOf (.replyStart (bytes [0])) (inState .eventReady (some 0x4000#16)) =
      some (.verdict (.reply 0x4000#16)) := by decide

theorem test_E2 : (after (.replyBufferSize (bytes [0, 6, 0xDC, 5])) (inState .eventReady (some 0x400B#16))).map
      (fun t => (t.drv.state, t.drv.buffersAvailable)) = some (.idle, 6) := by decide

theorem test_E3_E4 :
    (after (.evDhcp (bytes ([0] ++ List.replicate 20 7))) (inState .eventReady (some 0x1007#16))).map
      (fun t => (t.drv.state, t.drv.dhcpComplete, t.drv.ipConfig, t.drv.statUnsolicited)) =
      some (.awaitingReply, true, bytes (List.replicate 20 7), 1) ∧
    (after (.dispatchUnsolicited 0x8010#16 (bytes (List.replicate 21 7))) (inState .eventReady none)).map
      (fun t => (t.drv.state, t.drv.dhcpComplete)) = some (.idle, true) := by decide

theorem test_E5 : (after .dispatchEvent (ready [4, 0, 0x41, 0] none)).map (fun t => (t.drv.state, t.drv.statUnsolicited,
      t.result)) = some (.idle, 1, .verdict (.unrecognized 0x4100#16)) ∧
    resultOf (.evUnsolicitedOther 0x4100#16 []) (inState .eventReady none) =
      some (.verdict (.unrecognized 0x4100#16)) := by decide

theorem test_E5a : (after (.replyOther 0x40FF#16 []) (inState .eventReady (some 0x40FF#16))).map (fun t => (t.drv.state,
      t.drv.pendingCommand, t.drv.statUnsolicited, t.result)) =
    some (.idle, none, 0, .verdict (.unrecognized 0x40FF#16)) := by decide

theorem test_E6_E8 :
    (after (.replyStatusGet (bytes [0, 3, 0, 0, 0])) (inState .eventReady (some 9#16))).map
      (fun t => (t.drv.state, t.drv.wlanStatus)) = some (.idle, 3) ∧
    (after (.replyStatusGet (bytes [0])) (inState .eventReady (some 9#16))).map
      (fun t => (t.drv.state, t.drv.pendingCommand)) = some (.idle, none) := by decide

theorem test_E7_E7a :
    (after .pollDispatch (ready [4, 9, 0, 5, 0, 0, 0, 0, 0] (some 9#16))).map
      (fun t => (t.drv.state, t.drv.pendingCommand)) = some (.commandRequest, some 0x0001#16) ∧
    (after .dispatch (asserted (ready [4, 9, 0, 5, 0, 0, 0, 0, 0] (some 9#16)))).map
      (fun t => (t.drv.state, t.drv.pendingCommand)) = some (.idle, none) := by decide

theorem test_E9_E10 :
    (after (.replyUnexpected 0x1001#16 (bytes [0, 3, 0, 0, 0])) (inState .eventReady (some 0x1007#16))).map
      (fun t => (t.drv.state, t.drv.pendingCommand, t.result)) =
      some (.awaitingReply, some 0x1007#16, .verdict .invalid) ∧
    (after (.eventHdr 0x1001#16 (bytes [0, 3, 0, 0, 0])) (inState .eventReady none)).map
      (fun t => (t.drv.state, t.drv.statEvents, t.result)) = some (.idle, 1, .verdict .invalid) := by decide

theorem test_E11_E12 :
    (after (.tagUnrecognised 7) (inState .eventReady none)).map (fun t => (t.drv.state, t.drv.statEvents, t.result)) =
      some (.idle, 0, .verdict .invalid) ∧
    (after .dispatch (ready [1, 9, 0, 0] (some 9#16))).map (fun t => (t.drv.state, t.result)) =
      some (.awaitingReply, .verdict .invalid) := by decide

theorem test_E13_E14 :
    (after .dispatch (ready [] none)).map (fun t => (t.drv.state, t.result)) = some (.idle, .verdict .invalid) ∧
    (after (.packetMalformed (bytes [4, 9])) (inState .eventReady none)).map (fun t => (t.drv.state, t.drv.statEvents)) =
      some (.idle, 0) ∧
    (after .dispatchResume (inState .eventReady (some 9#16))).map (·.drv.state) = some .awaitingReply := by decide

theorem test_E15_E16 :
    (after .dispatchData (withTable [sock .init 0xFFFFFFFF#32, sock .creating 0xFFFFFFFF#32, sock .ready 7]
      (ready [2, 0x85, 4, 3, 0, 7, 0, 0, 0, 0x61, 0x62, 0x63] none))).map
      (fun t => (t.sm.table.map (fun k => (k.rxCount, k.rxBytes)), t.result)) =
      some ([(0, 0), (0, 0), (1, 3)], .verdict .data) ∧
    (after (.dataIn 0x85#8 (bytes [7, 0, 0, 0]) (bytes [0x61])) (inState .eventReady (some 9#16))).map
      (fun t => (t.drv.state, t.effects.head?)) =
      some (.awaitingReply, some (.obsData 0x85#8 (bytes [7, 0, 0, 0]) (bytes [0x61]))) := by decide

theorem test_dataHdrIn : (after (.dataHdrIn 0x85#8 (bytes [7, 0, 0, 0]) (bytes [1, 2]))
      (withTable [sock .ready 7] (inState .eventReady none))).map (fun t => t.sm.table.map (·.rxBytes)) = some [2] := by
  decide

theorem test_E17_E18 :
    (after (.evCloseWait (bytes [0, 3, 0, 0, 0])) (withTable [sock .ready 3] (inState .eventReady none))).map
      (fun t => (t.drv.state, t.sm.table.map (·.state), t.drv.statUnsolicited)) = some (.idle, [.closeWait], 1) ∧
    (after (.evCloseWait (bytes [0, 5, 0, 0, 0])) (withTable [sock .ready 3] (inState .eventReady none))).map
      (fun t => t.sm.table.map (·.state)) = some [.ready] := by decide

/-- R165: each socket reply reaches its own rule, on the socket that was current. -/
theorem test_socket_reply_rows :
    (after (.replySocket (bytes [0, 3, 0, 0, 0])) (withCurrent (some 0) (withTable [sock .creating 0xFFFFFFFF#32]
      (inState .eventReady (some 0x1001#16))))).map (fun t => t.sm.table.map (fun k => (k.state, k.descriptor))) =
      some [(.created, 3)] ∧
    (after (.replyConnect (bytes [0, 0, 0, 0, 0])) (withCurrent (some 0) (withTable [sock .connecting 3]
      (inState .eventReady (some 0x1007#16))))).map (fun t => t.sm.table.map (·.state)) = some [.ready] ∧
    (after (.replyClose []) (withCurrent (some 0) (withTable [sock .closing 3]
      (inState .eventReady (some 0x100B#16))))).map (fun t => t.sm.table.map (·.state)) = some [.init] ∧
    (after (.replyRecv []) (withCurrent (some 0) (withTable [sock .ready 3]
      (inState .eventReady (some 0x1004#16))))).map (fun t => (t.drv.state, t.sm.current)) =
      some (.receivingData, none) := by decide

theorem test_server_reply_rows :
    (after (.replyBind []) (withCurrent (some 0) (withTable [sock .binding 3]
      (inState .eventReady (some 0x1002#16))))).map (fun t => t.sm.table.map (·.state)) = some [.bound] ∧
    (after (.replyListen []) (withCurrent (some 0) (withTable [sock .listening 3]
      (inState .eventReady (some 0x1006#16))))).map (fun t => t.sm.table.map (·.state)) = some [.accepting] ∧
    (after (.replyAccept []) (withCurrent (some 0) (withTable [sock .accepting 3]
      (inState .eventReady (some 0x1005#16))))).map (fun t => t.sm.table.map (·.state)) = some [.ready] ∧
    (after (.replyWlanConnect []) (inState .eventReady (some 0x0001#16))).map
      (fun t => (t.drv.state, t.drv.pendingCommand, t.result)) =
      some (.idle, none, .verdict (.reply 0x0001#16)) := by decide

theorem test_select_reply_row :
    (after (.replySelect (bytes [0, 1, 0, 0, 0, 8, 0, 0, 0])) { withTable [sock .ready 3, sock .ready 0]
      (inState .eventReady (some 0x1008#16)) with sm := ⟨[sock .ready 3, sock .ready 0], none, true⟩ }).map
      (fun t => (t.sm.table.map (·.readable), t.sm.selectPending)) = some ([true, false], false) ∧
    (after (.dispatchMatchingReply 0x1008#16 (bytes [0])) { inState .eventReady (some 0x1008#16) with
      sm := ⟨[sock .ready 3], none, true⟩ }).map (fun t => (t.sm.table.map (·.readable), t.sm.selectPending)) =
      some ([false], false) := by decide

/-! ### Sockets (2.5) -/

theorem test_T1 : after (.sockAdd 2 1 6 []) (withTable (List.replicate 8 (sock .ready 3)) idle) =
    some { withTable (List.replicate 8 (sock .ready 3)) idle with result := .raised .invalid } := by decide

theorem test_T2 : (after (.sockAdd 2 1 6 (bytes [9])) State.reset).map (fun t => (t.sm.table, t.result)) =
    some ([⟨.init, 0xFFFFFFFF#32, 2, 1, 6, bytes [9], 0, false, 0, 0⟩], .okSlot 0) := by decide

theorem test_T3 :
    let s := withTable [sock .ready 3, sock .creating 0xFFFFFFFF#32, sock .ready 3] idle
    resultOf (.sockLookup 3) s = some (.slot (some 0)) ∧ resultOf (.sockLookup 0xFFFFFFFF#32) s = some (.slot none) ∧
      resultOf (.sockLookup 4) s = some (.slot none) := by decide

theorem test_T4 : (after (.smPoll 1) (withTable [sock .init 0xFFFFFFFF#32, sock .init 0xFFFFFFFF#32] idle)).map
      (fun t => (t.sm.table.map (·.state), t.sm.current, t.drv.pendingCommand)) =
    some ([.creating, .init], some 0, some 0x1001#16) := by decide

theorem test_T5 : (after (.smPoll 1) (withTable [{ sock .created 3 with type := 2 }] idle)).map
      (fun t => (t.sm.table.map (·.state), t.sm.selectPending, memReadBytes t.tx 33 4)) =
    some ([.ready], true, bytes [8, 0, 0, 0]) := by decide

theorem test_T6 : (after (.smPollCreated 0) (withTable [sock .created 3] (inState .awaitingReply (some 9#16)))).map
      (fun t => t.sm.table.map (·.state)) = some [.created] := by decide

theorem test_T7_T11 :
    (after (.sockReplyConnect (bytes [0, 0xFF, 0xFF, 0xFF, 0xFF]) (some 0)) (withTable [sock .connecting 3] idle)).map
      (fun t => t.sm.table.map (fun k => (k.state, k.retryTimeout))) = some [(.failed, 5)] ∧
    (after (.sockReplyConnect (bytes [0, 0, 0, 0, 0]) (some 0)) (withTable [sock .connecting 3] idle)).map
      (fun t => t.sm.table.map (·.state)) = some [.ready] := by decide

theorem test_T9_T10 :
    (after (.smPollFailed 0 2) (withTable [{ sock .failed 3 with retryTimeout := 1 }] idle)).map
      (fun t => t.sm.table.map (fun k => (k.state, k.retryTimeout))) = some [(.failed, 0)] ∧
    (after (.smPoll 2) (withTable [sock .failed 3] idle)).map
      (fun t => (t.sm.table.map (fun k => (k.state, k.descriptor)), t.drv.state)) =
      some ([(.init, 0xFFFFFFFF#32)], .idle) := by decide

theorem test_T14_T15 :
    (after (.sockReplySocket (bytes [0, 0xFE, 0xFF, 0xFF, 0xFF]) (some 0)) (withTable [sock .creating 9] idle)).map
      (fun t => t.sm.table.map (fun k => (k.state, k.descriptor))) = some [(.created, 0xFFFFFFFE#32)] ∧
    (after (.sockReplySocket (bytes [0, 3, 0, 0, 0]) (some 0)) (withTable [sock .closeWait 9] idle)).map
      (fun t => t.sm.table.map (·.state)) = some [.closeWait] := by decide

theorem test_T16 : (after .smPollSelect (withTable [sock .ready 3, sock .ready 0, sock .ready 40] idle)).map
      (fun t => (t.sm.selectPending, t.sm.current, memReadBytes t.tx 33 4)) =
    some (true, none, bytes [9, 0, 0, 0]) := by decide

theorem test_T18_T19 :
    (after (.sockReplySelect (bytes [0, 1, 0, 0, 0, 0, 0, 0, 0]) none)
      (withTable [{ sock .ready 3 with readable := true }] idle)).map (fun t => t.sm.table.map (·.readable)) =
      some [true] ∧
    (after (.sockReplySelect (bytes [0, 1, 0, 0, 0]) none) { idle with sm := ⟨[sock .ready 3], none, true⟩ }).map
      (fun t => (t.sm.table.map (·.readable), t.sm.selectPending)) = some ([false], false) := by decide

theorem test_T20 : (after (.smPollReady 0) (withTable [{ sock .ready 3 with readable := true }] idle)).map
      (fun t => (t.sm.table.map (·.readable), t.sm.current, memReadBytes t.tx 5 16)) =
    some ([false], some 0, bytes [1, 4, 0x10, 0x0C, 3, 0, 0, 0, 0, 1, 0, 0, 0, 0, 0, 0]) := by decide

theorem test_T21 : (after (.sockReplyRecv [] (some 0)) (withTable [sock .ready 3] idle)).map
      (fun t => (t.drv.state, t.sm.table)) = some (.receivingData, [sock .ready 3]) := by decide

theorem test_T22_T23 :
    (after (.smPollCloseWait 0) (withTable [sock .closeWait 3] idle)).map
      (fun t => (t.sm.table.map (·.state), t.sm.current, t.drv.pendingCommand)) =
      some ([.closing], some 0, some 0x100B#16) ∧
    (after (.sockReplyClose (bytes [1]) (some 0)) (withTable [{ sock .closing 3 with readable := true }] idle)).map
      (fun t => t.sm.table) = some [sock .init 0xFFFFFFFF#32] := by decide

theorem test_sock_issue_and_init :
    (after (.sockIssue 0 0x1001#16 []) (withTable [sock .init 0xFFFFFFFF#32] idle)).map
      (fun t => (t.sm.current, t.sm.table.map (·.state))) = some (some 0, [.init]) ∧
    (after (.smPollInit 0) (withTable [sock .init 0xFFFFFFFF#32] idle)).map (fun t => memReadBytes t.tx 0 22) =
      some (bytes [0x01, 0x00, 0x11, 0, 0, 0x01, 0x01, 0x10, 0x0C, 2, 0, 0, 0, 1, 0, 0, 0, 6, 0, 0, 0, 0]) ∧
    after (.smPollOtherStates 0) idle = some { idle with result := .nothing } := by decide

theorem test_server_replies :
    (after (.sockReplyServer 0x1006#16 [] (some 0)) (withTable [sock .listening 3] idle)).map
      (fun t => t.sm.table.map (·.state)) = some [.accepting] ∧
    (after (.sockReplyServer 0x1005#16 [] (some 0)) (withTable [sock .listening 3] idle)).map
      (fun t => t.sm.table.map (·.state)) = some [.listening] := by decide

theorem test_routed :
    (after (.sockCloseWait 3) (withTable [sock .ready 3, sock .ready 3] idle)).map (fun t => t.sm.table.map (·.state)) =
      some [.closeWait, .ready] ∧
    (after (.sockData (bytes [3, 0, 0, 0]) 5) (withTable [sock .ready 4, sock .ready 3] idle)).map
      (fun t => t.sm.table.map (·.rxBytes)) = some [0, 5] := by decide

theorem test_T24_T25 :
    resultOf (.sockClose 1) (withTable [sock .ready 3] idle) = some (.raised .invalid) ∧
    ([.sockClose 0, .sockRecv 0 10, .sendTo 0 (bytes [1]) []] : List Instr).map
      (fun i => resultOf i (withTable [sock .connecting 3] idle)) =
      [some (.raised .invalidState), some (.raised .invalidState), some (.raised .invalidState)] := by decide

theorem test_T26 : (after (.sockRecv 0 100) (withTable [{ sock .ready 3 with readable := true }]
      (inState .awaitingReply (some 9#16)))).map (fun t => (t.result, t.sm.table.map (·.readable))) =
    some (.raised .busy, [true]) := by decide

/-- T27 with three data bytes: the header counts 24 argument bytes of the default codec. -/
theorem test_T27 : (after (.sendTo 0 (bytes [1, 2, 3]) (List.replicate 8 0)) (withTable [sock .ready 3] idle)).map
      (fun t => (t.drv.state, t.drv.pendingCommand, memReadBytes t.tx 0 10, t.result)) =
    some (.dataRequest, none, bytes [0x01, 0x00, 0x21, 0, 0, 0x02, 0x83, 0x18, 0x03, 0x00], .ok) := by decide

theorem test_sock_close : (after (.sockClose 0) (withTable [sock .closeWait 3] idle)).map
      (fun t => (t.sm.table.map (·.state), t.result)) = some ([.closing], .ok) := by decide

/-! ### Witnesses: states and operands that meet a statement's hypotheses, clause by clause -/

theorem witness_DecodeOfEncodeGivesTheInstruction :
    defaultParams.wf = true ∧ Instr.wf defaultParams (.replyClose (List.replicate 255 0)) = true ∧
    pendingFits defaultParams (some 0x100B#16) (.replyClose (List.replicate 255 0)) = true ∧
    Instr.wf defaultParams (.replyUnexpected 0x40FF#16 []) = true ∧
    pendingFits defaultParams none (.replyUnexpected 0x40FF#16 []) = true := by decide +kernel

/-- The largest packet RX holds: 1695 bytes of payload; and one byte more. -/
theorem witness_DispatchIsTheDecodedPacket :
    let s := writeRx 0 (bytes [2, 0x06, 0x9F, 0, 0, 4]) (inState .eventReady none)
    let u := writeRx 0 (bytes [2, 0x06, 0xA0, 0, 0, 4]) (inState .eventReady none)
    s.cfg.wf = true ∧ 5 + rxLength s = s.cfg.bufSize ∧ u.cfg.wf = true ∧ 5 + rxLength u = u.cfg.bufSize + 1 := by decide

theorem witness_StepRunsTheDecodedOperation :
    let s := scheduled [.line ⟨"POLL", [.num 1]⟩ [.idle, .asserted], .edge] idle
    s.env.schedule = stimulus [.idle, .asserted] (.line ⟨"POLL", [.num 1]⟩) :: [.edge] ∧ transferDue s = false ∧
      (s.env.heldEdge && s.drv.intEn) = false ∧
      decode s.cfg s.drv.pendingCommand (.line ⟨"POLL", [.num 1]⟩) = .instr (.poll 1) := by decide

/-- The same for bytes at their place, and for START, which may end held. -/
theorem witness_StepRunsTheDecodedOperation_wire :
    let s := scheduled [.wire .rxPacket (bytes [7])] (inState .eventReady none)
    s.env.schedule = stimulus [] (.wire .rxPacket (bytes [7])) :: [] ∧ transferDue s = false ∧
      (s.env.heldEdge && s.drv.intEn) = false ∧
      decode s.cfg s.drv.pendingCommand (.wire .rxPacket (bytes [7])) = .instr (.tagUnrecognised 7) ∧
      resultOf .start State.reset = some .held := by decide

theorem witness_StepWithoutAnOperation :
    transferDue (withParams (fun p => { p with xferSync := true }) (withXfer ⟨.tx, 10⟩ (inState .sendingCommand (some 9#16)))) =
      true ∧
    (State.reset.env.schedule = [] ∧ transferDue State.reset = false ∧
      (State.reset.env.heldEdge && State.reset.drv.intEn) = false) ∧
    (let s := scheduled [.line ⟨"HALT", []⟩ []] idle;
      s.env.schedule = stimulus [] (.line ⟨"HALT", []⟩) :: [] ∧ transferDue s = false ∧
        (s.env.heldEdge && s.drv.intEn) = false ∧
        decode s.cfg s.drv.pendingCommand (.line ⟨"HALT", []⟩) = .rejected .unknownOperation) := by decide

theorem witness_EdgesAreServedKeptOrDropped :
    (let s := scheduled [.edge] State.reset;
      s.env.schedule = .edge :: [] ∧ transferDue s = false ∧ s.drv.intEn = false) ∧
    (let s : State := { idle with env := { idle.env with heldEdge := true } };
      transferDue s = false ∧ s.env.heldEdge = true ∧ s.drv.intEn = true) ∧
    (let s := scheduled [.edge] idle;
      s.env.schedule = .edge :: [] ∧ transferDue s = false ∧ s.env.heldEdge = false ∧ s.drv.intEn = true) := by decide

/-- A state in the middle of a transaction that meets every invariant, with the completion scheduled: `TX` has been sent,
the header with length 9 is next. -/
def midway : State :=
  scheduled [.line ⟨"XFER_DONE", [.bytes (bytes [2, 0, 9, 0, 0])]⟩ []]
    (withCurrent (some 0) (withTable [sock .connecting 3] (withXfer ⟨.exchange, 5⟩ (inState .readingHeader (some 0x1007#16)))))

theorem witness_StepKeepsTheEngineInvariant : EngineInv midway ∧ (afterStep midway).isSome = true := by
  unfold EngineInv; decide

theorem witness_StepKeepsTheTableInvariant :
    EngineInv midway ∧ TableInv midway ∧ (afterStep midway).isSome = true := by
  unfold EngineInv TableInv; decide

theorem witness_StepKeepsTheBuffersCanonical : BuffersCanonical midway ∧ (afterStep midway).isSome = true := by
  unfold BuffersCanonical; decide

theorem witness_StepKeepsTheBuffersInRange :
    BuffersInRange midway ∧ (afterStep midway).isSome = true := by
  unfold BuffersInRange; decide

theorem witness_SetStateIsTheOnlyWriter : (after (.poll 1) idle).isSome = true := by decide

theorem witness_TransitionsAreThoseOfTheTable :
    EngineInv midway ∧ (afterStep midway).map (·.effects) =
      some [.obsTransition .readingHeader .readingPayload, .xfer .rx 9] := by
  unfold EngineInv; decide

/-- With a transaction in flight, the step that ends it and a step that does not; and without one. -/
theorem witness_BuffersHaveOneOwner :
    (EngineInv midway ∧ midway.drv.xfer ≠ none ∧ (afterStep midway).isSome = true) ∧
    (let s := scheduled [.line ⟨"POLL", [.num 1]⟩ []] midway;
      EngineInv s ∧ s.drv.xfer ≠ none ∧
        (afterStep s).map (·.drv.statSpiCompletions) = some s.drv.statSpiCompletions) ∧
    (let s := scheduled [.line ⟨"ISSUE_COMMAND", [.num 9, .bytes []]⟩ []] idle;
      EngineInv s ∧ s.drv.xfer = none ∧ (afterStep s).isSome = true) := by
  unfold EngineInv; decide

/-- The invariants hold at reset and in a busy state, whose run of one step answers a next state. -/
theorem witness_NoFatalPath : (EngineInv State.reset ∧ TableInv State.reset) ∧ (EngineInv midway ∧ TableInv midway) := by
  unfold EngineInv TableInv; decide

theorem witness_NothingIsTakenBack :
    (after (.poll 1) { idle with drv := { idle.drv with dhcpComplete := true } }).isSome = true ∧
      idle.drv.chipEn = true := by decide

theorem witness_SocketTransitionsAreThoseOfTheTable :
    (byAgent (.sockClose 0) = true ∧
      (after (.sockClose 0) (withTable [sock .ready 3] idle)).map (fun t => t.sm.table.map (·.state)) =
        some [.closing]) ∧
    (after .dispatch (withTable [sock .ready 3] (ready [4, 0, 0x88, 5, 0, 3, 0, 0, 0] none))).map
      (fun t => t.sm.table.map (·.state)) = some [.closeWait] ∧
    (after (.smPoll 1) (withTable [sock .created 3] idle)).map (fun t => t.sm.table.map (·.state)) =
      some [.connecting] ∧ idle.cfg.wf = true := by decide

/-- The reply that may write TX; and two packets that may not, while a status-get is pending and the WLAN disconnected:
the reply that says "connected", and an unsolicited event. -/
theorem witness_WhatDispatchNeverDoes :
    State.reset.cfg.wf = true ∧ State.reset.drv.wlanStatus = State.reset.cfg.wlanDisconnected ∧
    (after .dispatch (ready [4, 9, 0, 5, 0, 0, 0, 0, 0] (some 9#16))).map (·.drv.wlanStatus) =
      some State.reset.cfg.wlanDisconnected ∧
    (let s := ready [4, 9, 0, 5, 0, 3, 0, 0, 0] (some 9#16);
      decodeWire s.cfg s.drv.pendingCommand .rxPacket (readRx 5 (rxLength s) s) =
        .instr (.replyStatusGet (bytes [0, 3, 0, 0, 0])) ∧
      exStatus s.cfg.codec (bytes [0, 3, 0, 0, 0]) ≠ some s.cfg.wlanDisconnected ∧
      (after .dispatch s).isSome = true) ∧
    (let s := ready [4, 0, 0x41, 0] (some 9#16);
      decodeWire s.cfg s.drv.pendingCommand .rxPacket (readRx 5 (rxLength s) s) =
        .instr (.evUnsolicitedOther 0x4100#16 []) ∧ (after .dispatch s).isSome = true) := by decide

/-- F12: the largest data frame, and one byte more. -/
theorem witness_FramesAreBuiltOrRefused :
    ¬DataInvalid defaultParams (List.replicate 4 0) (List.replicate 1685 0) ∧
    DataInvalid defaultParams (List.replicate 4 0) (List.replicate 1686 0) ∧
    DataInvalid defaultParams (List.replicate 256 0) [] := by
  simp only [DataInvalid, List.length_replicate]; decide

theorem witness_TransportHeadersAreBuilt :
    5 + 1694 + 1 ≤ State.reset.cfg.bufSize ∧ State.reset.cfg.bufSize ≤ 65535 := by decide

theorem witness_FormatRows :
    5 ≤ State.reset.cfg.bufSize ∧
    (let s : State := { idle with drv := { idle.drv with transmitLength := 4 } };
      s.drv.transmitLength.toNat < 5 ∨ s.drv.transmitLength.toNat % 2 = 0) ∧
    (let s : State := { idle with drv := { idle.drv with transmitLength := 3 } };
      s.drv.transmitLength.toNat < 5 ∨ s.drv.transmitLength.toNat % 2 = 0) ∧
    (let s : State := { idle with drv := { idle.drv with transmitLength := 65535 } };
      5 ≤ s.drv.transmitLength.toNat ∧ s.drv.transmitLength.toNat % 2 = 1) ∧
    (let s : State := { idle with drv := { idle.drv with transmitLength := 5 } };
      5 ≤ s.drv.transmitLength.toNat ∧ s.drv.transmitLength.toNat % 2 = 1) := by decide

/-- P8, P5 and P11: a payload of fewer bytes than its header, and the two that parse. -/
theorem witness_ParsersReadTheFields :
    State.reset.cfg.wf = true ∧ 10 ≤ State.reset.cfg.bufSize ∧
    (let s := ready [4, 9, 0] none;
      rxLength s < 4 ∧ 5 + rxLength s ≤ s.cfg.bufSize) ∧
    (let s := ready [4, 9, 0, 5, 0, 3, 0, 0, 0] none;
      4 + (memRead s.rx 8).toNat = rxLength s) ∧
    (let s := ready [2, 0x85, 4, 3, 0, 7, 0, 0, 0, 0x61, 0x62, 0x63] none;
      5 + rxLength s ≤ s.cfg.bufSize ∧ 5 + (memRead s.rx 7).toNat + (memRead s.rx 8).toNat = rxLength s) := by decide

/-- R71: data that ends with RX, and one byte past it: both are read (log 19). -/
theorem witness_ParsersReadTheFields_end :
    (let s := writeRx 0 (bytes [2, 0x06, 0x9F, 0, 0, 2, 0, 0, 0x9A, 0x06]) idle;
      5 + rxLength s = s.cfg.bufSize ∧ (after .parseDataHeader s).isSome = true) ∧
    (let s := writeRx 0 (bytes [2, 0x06, 0xA0, 0, 0, 2, 0, 0, 0x9B, 0x06]) idle;
      5 + rxLength s = s.cfg.bufSize + 1 ∧ (after .parseDataHeader s).isSome = true) := by decide +kernel

theorem witness_FramingRoundTrip :
    State.reset.cfg.wf = true ∧ (List.replicate 255 (0 : Byte)).length ≤ 255 ∧
    ¬DataInvalid State.reset.cfg (List.replicate 4 0) (List.replicate 1685 0) := by
  simp only [DataInvalid, List.length_replicate]; decide

theorem witness_FramesHaveEvenLength :
    State.reset.cfg.wf = true ∧ resultOf (.frameCommand 0x0009#16 []) State.reset = some (.length 10) ∧
    resultOf (.frameData 0x83#8 [] (bytes [0xAA])) State.reset = some (.length 12) := by decide

/-- The first slot that is free, in a table of one. -/
theorem witness_OperandsTheCallersExcludeRun :
    (withTable [sock .ready 3] idle).sm.count ≤ 1 ∧ idle.cfg.wf = true := by decide

/-- A frame one byte longer than TX; a command and a per-slot rule for a free slot, and for an index that is no slot's
(log 19); a receive length GK9's field cannot hold (log 30). -/
theorem test_operands_the_callers_exclude :
    resultOf (.frameTransport 1 1696) State.reset = some (.length 1702) ∧
    (after (.xportHdrWrite 1696) State.reset).map (·.drv.transmitLength) = some 1701#16 ∧
    (after (.sockIssue 1 0x1001#16 []) (withTable [sock .ready 3] idle)).map
      (fun t => (t.sm.current, t.sm.table, t.drv.state)) = some (some 1, [sock .ready 3], .commandRequest) ∧
    (after (.smPollInit 1) (withTable [sock .ready 3] idle)).map
      (fun t => (t.sm.current, t.drv.pendingCommand, t.env.slotDraws)) = some (some 1, some 0x1001#16, 1) ∧
    (after (.sockIssue 8 0x1001#16 []) (withTable [sock .ready 3] idle)).map
      (fun t => (t.sm.current.isSome, t.sm.table, t.drv.state)) = some (true, [sock .ready 3], .commandRequest) ∧
    (after (.sockRecv 0 0x100000000) (withTable [sock .ready 3] idle)).map (fun t => (t.sm.current, t.drv.state)) =
      some (some 0, .commandRequest) := by
  decide +kernel

theorem witness_StartSendsTheHandshake :
    1700 ≤ State.reset.cfg.bufSize ∧ State.reset.cfg.startArgs.length ≤ 255 ∧
    (List.replicate 256 (0 : Byte)).length > 255 ∧ idle.drv.state ≠ .init ∧
    (asserted State.reset).drv.state = .init ∧ (asserted State.reset).env.level = .asserted := by decide +kernel

/-- Arguments that cannot be framed: Invalid after CS(1) and DELAY, which stay done (R10, R120). -/
theorem test_start_unframed :
    (after (.cmdStart (List.replicate 256 0)) (asserted State.reset)).map
      (fun t => (t.result, t.drv.state, t.drv.cs, t.effects)) =
    some (.raised .invalid, .init, true, [.intEn false, .chipEn true, .irqLevel .asserted, .cs true,
      .delay State.reset.cfg.startDelayUs]) := by decide +kernel

theorem witness_StartHoldsWhileTheLineIsIdle : State.reset.drv.state = .init ∧ State.reset.env.level = .idle := by decide

/-- Each outcome of ISSUE_COMMAND has a state: busy, too long, deferred, accepted. -/
theorem witness_IssueCommandOutcomes :
    idle.cfg.wf = true ∧ resultOf (.issueCommand 9 []) (inState .awaitingReply (some 9#16)) = some (.raised .busy) ∧
    resultOf (.issueCommand 9 (List.replicate 256 0)) idle = some (.raised .invalid) ∧
    resultOf (.issueCommand 9 []) (asserted idle) = some (.raised .busy) ∧
    resultOf (.issueCommand 9 (List.replicate 255 0)) idle = some .ok := by decide +kernel

theorem witness_CommandRowsIssueTheirOpcode :
    commandRow idle.cfg (.cmdClose []) = some (0x100B#16, []) ∧ idle.cfg.wf = true := by decide

theorem witness_WlanConnectOutcomes :
    State.reset.cfg.wf = true ∧ State.reset.drv.state ≠ .idle ∧ idle.drv.state = .idle := by decide

theorem witness_IssueDataOutcomes :
    resultOf (.issueData 0x83#8 [] []) (inState .awaitingReply none) = some (.raised .busy) ∧
    resultOf (.issueData 0x83#8 (List.replicate 256 0) []) idle = some (.raised .invalid) ∧
    resultOf (.issueData 0x83#8 [] []) (asserted idle) = some (.raised .busy) ∧
    resultOf (.dataSendto [] []) idle = some .ok := by decide +kernel

theorem witness_CompletionsCloseTheTransaction :
    midway.drv.xfer = some ⟨.exchange, 5⟩ ∧
    completionRow 5 midway.drv.state = some .onTransportCompleteReadingHeader ∧
    (withXfer ⟨.tx, 10⟩ (inState .sendingCommand (some 9#16))).drv.xfer = some ⟨.tx, 10⟩ ∧
    completionRow 10 .sendingCommand = some (.onTransportCompleteSendingCommand 10) ∧
    completionRow 12 .sendingData = some (.onTransportCompleteSendingData 12) ∧
    completionRow 9 .readingPayload = some (.onTransportCompleteReadingPayload 9) := by decide

theorem witness_CompletionWithoutATransactionIsRefused : idle.drv.xfer = none := by decide

theorem witness_PollDispatchesAndDrains :
    (ready [7] none).drv.state = .eventReady ∧ idle.drv.state ≠ .eventReady ∧
    (let s : State := { idle with drv := { idle.drv with interruptPending := true } };
      s.drv.interruptPending = true ∧ s.drv.state = .idle) := by decide

/-- At the interval and just below it. -/
theorem witness_PollIssuesTheStatusGet :
    idle.cfg.wf = true ∧ idle.cfg.statusPollInterval ≤ min (4 + 1) (2 ^ 32 - 1) ∧
    ¬idle.cfg.statusPollInterval ≤ min (4 + 0) (2 ^ 32 - 1) ∧ idle.drv.state = .idle ∧
    idle.drv.pendingCommand = none := by decide

theorem witness_TheSocketManagerPollsOnceTheNetworkIsUp :
    idle.drv.wlanStatus ≠ idle.cfg.wlanConnected ∧
    (let s : State := { idle with drv := { idle.drv with wlanStatus := 3, dhcpComplete := true } };
      s.drv.wlanStatus = s.cfg.wlanConnected ∧ s.drv.dhcpComplete = true) := by decide

theorem witness_DispatchSelectsByTag :
    rxLength (ready [] none) = 0 ∧ rxLength (ready [7] none) ≠ 0 ∧
    memRead (ready [2] none).rx 5 = State.reset.cfg.tagData ∧ memRead (ready [4] none).rx 5 = State.reset.cfg.tagEvent ∧
    memRead (ready [1] none).rx 5 ≠ State.reset.cfg.tagEvent := by decide

theorem witness_DataPacketsAreCountedAndReported :
    let s := ready [2, 0x85, 4, 3, 0, 7, 0, 0, 0, 0x61, 0x62, 0x63] none
    (parseDataHeader s).isSome = true ∧ (parseDataHeader (ready [2] none)).isSome = false := by decide

/-- The threshold itself, and just below it with and without the command pending. -/
theorem witness_EventsAreCountedThenSplit :
    eventRow defaultParams (.evUnsolicitedOther 0x4100#16 []) = some (0x4100#16, []) ∧
    unsolThreshold.toNat ≤ (0x4100#16).toNat ∧
    eventRow defaultParams (.replyOther 0x40FF#16 []) = some (0x40FF#16, []) ∧
    (0x40FF#16).toNat < unsolThreshold.toNat ∧
    (inState .eventReady (some 0x40FF#16)).drv.pendingCommand = some 0x40FF#16 ∧
    (inState .eventReady none).drv.pendingCommand ≠ some 0x40FF#16 := by decide

theorem witness_UnsolicitedEvents :
    defaultParams.evCloseWait ≠ defaultParams.evDhcp ∧ 0x4100#16 ≠ defaultParams.evDhcp ∧
    0x4100#16 ≠ defaultParams.evCloseWait := by decide

theorem witness_MatchingRepliesClearThenAct :
    defaultParams.wf = true ∧ defaultParams.opcRecv ∈ lifecycle defaultParams ∧
    defaultParams.named 0x40FF#16 = false := by decide

theorem witness_BufferSizeAndStatusReplies : State.reset.cfg.wf = true := by decide

theorem witness_SocketCommands :
    (withTable [sock .init 0xFFFFFFFF#32] idle).sm.table[0]? = some (sock .init 0xFFFFFFFF#32) ∧ idle.cfg.wf = true ∧
    (sock .created 3).type = idle.cfg.typeStream ∧ ({ sock .created 3 with type := 2 } : Socket).type ≠ idle.cfg.typeStream ∧
    ({ sock .ready 3 with readable := true } : Socket).readable = true := by decide

/-- The countdown at zero, and one short of it. -/
theorem witness_FailedSocketsCountDown :
    (withTable [sock .failed 3] idle).sm.table[0]? = some (sock .failed 3) ∧ (sock .failed 3).retryTimeout = 0 ∧
    ({ sock .failed 3 with retryTimeout := 1 } : Socket).retryTimeout ≠ 0 := by decide

theorem witness_SmPollVisitsTheSlotsInOrder : 0 < (withTable [sock .init 0xFFFFFFFF#32] idle).sm.count := by decide

/-- Descriptor 31, the highest with a bit. -/
theorem witness_SelectCoversTheReadySockets :
    let s := withTable [sock .ready 31] idle
    s.cfg.wf = true ∧ s.sm.selectPending = false ∧ s.drv.state = .idle ∧ s.drv.pendingCommand = none ∧
      selectMask s.sm.table = 0x80000000#32 := by decide

theorem witness_CreateConnectAndCloseReplies :
    (withTable [sock .creating 0xFFFFFFFF#32] idle).sm.table[0]? = some (sock .creating 0xFFFFFFFF#32) ∧
    (sock .creating 0xFFFFFFFF#32).state = .creating ∧ (sock .connecting 3).state = .connecting ∧
    (sock .closing 3).state = .closing ∧ (sock .closeWait 3).state ≠ .connecting := by decide

theorem witness_SelectReceiveAndServerReplies :
    idle.cfg.wf = true ∧ (withTable [sock .ready 31] idle).sm.table[0]? = some (sock .ready 31) ∧
    (sock .binding 3).state = .binding ∧ (sock .listening 3).state = .listening ∧
    (sock .accepting 3).state = .accepting ∧ 0x1001#16 ≠ idle.cfg.opcBind ∧ 0x1001#16 ≠ idle.cfg.opcListen ∧
    0x1001#16 ≠ idle.cfg.opcAccept := by decide

/-- Slot 1 is the lowest that holds descriptor 3; no slot holds 4. -/
theorem witness_EventsAndDataAreRoutedByDescriptor :
    let s := withTable [sock .creating 3, sock .ready 3, sock .ready 3] idle
    Lowest s 3 1 ∧ s.sm.table[1]? = some (sock .ready 3) ∧ ∀ i, ¬Found s 4 i := by
  refine ⟨⟨⟨sock .ready 3, by decide, by decide, by decide, by decide⟩, ?_⟩, by decide, ?_⟩
  · rintro j hj ⟨k, hk, -, h, -⟩
    obtain rfl : j = 0 := by omega
    cases hk
    exact h rfl
  · rintro i ⟨k, hk, -, -, h⟩
    have hm := List.mem_of_getElem? hk
    simp only [withTable, List.mem_cons, List.not_mem_nil, or_false] at hm
    rcases hm with rfl | rfl | rfl <;> exact absurd h (by decide)

theorem witness_SockLookupFindsTheLowestSlot : resultOf (.sockLookup 3)
    (withTable [sock .creating 3, sock .ready 3, sock .ready 3] idle) = some (.slot (some 1)) := by decide

theorem witness_ApplicationSocketOperations :
    (withTable [sock .ready 3] idle).sm.count ≤ 1 ∧
    (withTable [sock .ready 3] idle).sm.table[0]? = some (sock .ready 3) ∧ idle.cfg.wf = true ∧
    (sock .closeWait 3).state = .closeWait ∧ (sock .connecting 3).state ≠ .ready := by decide

end Sys2Proof.Tests
end

/-! Scope: what one step does with the schedule's next entry (R12, R90, R91). -/

namespace Sys2Proof.Machine

open Sys2Proof.Spec

/-! ### The environment's supply of levels and the schedule's entries -/

/-- The levels of `irq=`, the empty supply included, as one record: the first is read next, the others after it (R91). -/
theorem Env.supply_eq (irq : List Level) (e : Env) :
    e.supply irq = { e with
      level := irq.headD e.level
      levels := if irq = [] then e.levels else irq.tail } := by
  cases irq with
  | nil => rfl
  | cons l rest => simp [Env.supply]

/-- Held, an entry keeps its encoding and loses its levels, whichever kind it is (log 9). -/
@[simp] theorem heldSchedule_stimulus (irq : List Level) (enc : Encoding) (rest : List Stimulus) :
    heldSchedule (stimulus irq enc :: rest) = stimulus [] enc :: rest := by
  cases enc with
  | wire site bytes => rfl
  | line op => rfl

/-! ### What comes next, and what the step makes of it -/

/-- With no synchronous completion due and no kept edge to serve, the schedule says what comes next. -/
theorem nextEvent_eq_scheduled {s : State} (hdue : transferDue s = false)
    (hedge : (s.env.heldEdge && s.drv.intEn) = false) : nextEvent s = scheduled s := by
  simp [nextEvent, hdue, hedge]

/-- Next on the schedule, a trace line runs what it decodes to with its levels supplied. -/
theorem scheduled_line {s : State} {op : TraceOp} {irq : List Level} {rest : List Stimulus}
    (h : s.env.schedule = .line op irq :: rest) :
    scheduled s = runDecoded (decodeLine op) (beginLine irq rest s) := by
  simp only [scheduled, h]

/-- Next on the schedule, wire bytes run what they decode to at their place; they supply no levels. -/
theorem scheduled_wire {s : State} {site : WireSite} {bytes : List Byte} {rest : List Stimulus}
    (h : s.env.schedule = .wire site bytes :: rest) :
    scheduled s = runDecoded (decodeWire s.cfg s.drv.pendingCommand site bytes) (dropStimulus rest s) := by
  simp only [scheduled, h]

/-- A step whose event is an operation is that operation, settled. -/
theorem step_of_run {s u : State} {i : Instr} (h : nextEvent s = .run i u) :
    step s = settle s.env.schedule (exec i u) := by
  simp only [step, h]

/-- Settling touches a held next state only, and there only the schedule: the entry that ran is put back (log 9). -/
theorem settle_stimulus (irq : List Level) (enc : Encoding) (rest : List Stimulus) (o : Outcome) :
    settle (stimulus irq enc :: rest) o = match o with
      | .next t =>
        .next (if t.result = .held then { t with env := { t.env with schedule := stimulus [] enc :: rest } } else t)
      | .fault f => .fault f
      | .refused r => .refused r := by
  cases o with
  | next t =>
    by_cases held : t.result = .held
    · simp only [settle, if_pos held, heldSchedule_stimulus]
    · simp only [settle, if_neg held]
  | fault f => rfl
  | refused r => rfl

end Sys2Proof.Machine

namespace Sys2Proof.Scope

open Sys2Proof.Machine Sys2Proof.Spec

/-- Settles O4: the next event is the decoded operation, in the state that has taken a wire form's entry or a line's entry
and its levels; `settle_stimulus` then says how its outcome becomes the step's. -/
theorem stepRunsTheDecodedOperation : Obligations.StepRunsTheDecodedOperation := by
  intro s enc irq rest i hsched hdue hedge hdec given u
  have hrun : nextEvent s = .run i u := by
    rw [nextEvent_eq_scheduled hdue hedge]
    cases enc with
    | wire site bytes =>
      have hwire : decodeWire s.cfg s.drv.pendingCommand site bytes = .instr i := hdec
      rw [scheduled_wire hsched, hwire]
      rfl
    | line op =>
      have hline : decodeLine op = .instr i := hdec
      have hbegin : beginLine irq rest s = u := by
        rw [beginLine, Env.supply_eq]
      rw [scheduled_line hsched, hline, hbegin]
      rfl
  calc step s = settle s.env.schedule (exec i u) := step_of_run hrun
    _ = settle (stimulus irq enc :: rest) (exec i u) := by rw [hsched]
    _ = _ := settle_stimulus irq enc rest (exec i u)

end Sys2Proof.Scope

/-! State: the invariants that every step keeps (R33 to R36, R40, R45, R64, R71, R200), what no operation takes back,
the state after reset, and the operands the callers exclude (10_state). -/

namespace Sys2Proof.Machine

/-! ### The sequencer's invariant, register by register -/

/-- `EngineInv` without what is scheduled: the part that is about the block. -/
structure EngineSound (s : State) : Prop where
  params : s.cfg.wf = true
  cs : s.drv.cs = chipSelected s.drv.state
  intEn : s.drv.intEn = !lineMasked s.drv.state
  xfer : s.drv.xfer = transferOf s
  frame : framePresent s.drv.state = true → s.drv.transmitLength.toNat % 2 = 0 ∧
    10 ≤ s.drv.transmitLength.toNat ∧ s.drv.transmitLength.toNat ≤ s.cfg.bufSize
  fits : s.drv.state = .readingPayload ∨ s.drv.state = .eventReady → 5 + receivedLength s ≤ s.cfg.bufSize
  pending : ∀ b, commandPending s.drv.state = some b → s.drv.pendingCommand.isSome = b

theorem engineInv_iff (s : State) : EngineInv s ↔ agentsOnly s = true ∧ EngineSound s := by
  have lines : linesFollowState s = true ↔
      s.drv.cs = chipSelected s.drv.state ∧ s.drv.intEn = !lineMasked s.drv.state := by
    simp [linesFollowState]
  have frame : frameSound s = true ↔ (framePresent s.drv.state = true → s.drv.transmitLength.toNat % 2 = 0 ∧
      10 ≤ s.drv.transmitLength.toNat ∧ s.drv.transmitLength.toNat ≤ s.cfg.bufSize) := by
    cases h : framePresent s.drv.state <;> simp [frameSound, h, and_assoc]
  have fits : packetFits s = true ↔ (s.drv.state = .readingPayload ∨ s.drv.state = .eventReady →
      5 + receivedLength s ≤ s.cfg.bufSize) := by
    simp only [packetFits, Bool.or_eq_true, Bool.not_eq_true', decide_eq_false_iff_not, decide_eq_true_eq]
    exact imp_iff_not_or.symm
  have pending : pendingAgrees s = true ↔
      ∀ b, commandPending s.drv.state = some b → s.drv.pendingCommand.isSome = b := by
    cases h : commandPending s.drv.state <;> simp [pendingAgrees, h]
  unfold EngineInv
  rw [lines, frame, fits, pending]
  constructor
  · rintro ⟨hparams, hagents, ⟨hcs, hint⟩, hxfer, hframe, hfits, hpending⟩
    exact ⟨hagents, hparams, hcs, hint, hxfer, hframe, hfits, hpending⟩
  · rintro ⟨hagents, hparams, hcs, hint, hxfer, hframe, hfits, hpending⟩
    exact ⟨hparams, hagents, ⟨hcs, hint⟩, hxfer, hframe, hfits, hpending⟩

/-- All that the sequencer's invariant reads of the state. -/
def engineView (s : State) :
    Params × Memory × DrvState × Bool × Bool × Option Xfer × BitVec 16 × Option Opcode :=
  (s.cfg, s.rx, s.drv.state, s.drv.cs, s.drv.intEn, s.drv.xfer, s.drv.transmitLength, s.drv.pendingCommand)

/-- The received length depends on the parameters and the header bytes alone (R104). -/
theorem receivedLength_congr {s t : State} (hcfg : t.cfg = s.cfg)
    (hrx : ∀ a < 5, memRead t.rx a = memRead s.rx a) : receivedLength t = receivedLength s := by
  rw [receivedLength_eq, receivedLength_eq, hcfg, hrx 1 (by decide), hrx 2 (by decide), hrx 3 (by decide),
    hrx 4 (by decide)]

theorem EngineSound.congr {s t : State} (h : EngineSound s) (hv : engineView t = engineView s) : EngineSound t := by
  simp only [engineView, Prod.mk.injEq] at hv
  obtain ⟨hcfg, hrx, hstate, hcs, hint, hxfer, hlen, hpend⟩ := hv
  have hrecv : receivedLength t = receivedLength s := receivedLength_congr hcfg fun a _ => by rw [hrx]
  have htrans : transferOf t = transferOf s := by simp only [transferOf, hstate, hlen, hrecv]
  constructor
  · rw [hcfg]; exact h.params
  · rw [hcs, hstate]; exact h.cs
  · rw [hint, hstate]; exact h.intEn
  · rw [hxfer, htrans]; exact h.xfer
  · rw [hstate, hlen, hcfg]; exact h.frame
  · rw [hstate, hrecv, hcfg]; exact h.fits
  · rw [hstate, hpend]; exact h.pending

/-- The states in which the block waits for the chip or the application, with nothing framed and nothing received:
those in which an interrupt starts a read (R126). -/
def quiet : DrvState → Bool
  | .startSequence | .awaitingReply | .idle | .receivingData => true
  | _ => false

theorem quiet_lines {d : DrvState} (h : quiet d = true) : chipSelected d = false ∧ lineMasked d = false ∧
    framePresent d = false ∧ ¬(d = .readingPayload ∨ d = .eventReady) := by
  revert h
  cases d <;> decide

/-- A transaction is in flight only while chip-select is asserted (R33, R34). -/
theorem transferOf_of_unselected {s : State} (h : chipSelected s.drv.state = false) : transferOf s = none := by
  unfold transferOf
  cases hs : s.drv.state <;> simp [chipSelected, hs] at h ⊢

theorem EngineSound.xfer_none {s : State} (h : EngineSound s) (hs : chipSelected s.drv.state = false) :
    s.drv.xfer = none := h.xfer.trans (transferOf_of_unselected hs)

/-- In a quiet state the chip is released, the line enabled and no transaction in flight, and that is all the invariant
asks but for the pending command. -/
theorem EngineSound.of_quiet {s : State} (hwf : s.cfg.wf = true) (hq : quiet s.drv.state = true)
    (hcs : s.drv.cs = false) (hint : s.drv.intEn = true) (hxfer : s.drv.xfer = none)
    (hpend : ∀ b, commandPending s.drv.state = some b → s.drv.pendingCommand.isSome = b) : EngineSound s := by
  obtain ⟨hselected, hmasked, hframe, hpacket⟩ := quiet_lines hq
  exact {
    params := hwf
    cs := by rw [hcs, hselected]
    intEn := by rw [hint, hmasked]; rfl
    xfer := by rw [hxfer, transferOf_of_unselected hselected]
    frame := fun h => absurd (h.symm.trans hframe) Bool.true_eq_false.mp
    fits := fun h => absurd h hpacket
    pending := hpend }

/-- While a packet waits for dispatch and in `Idle` the chip is released and the line enabled (R33, R34). -/
theorem EngineSound.released {s : State} (h : EngineSound s) (hs : s.drv.state = .eventReady ∨ s.drv.state = .idle) :
    s.drv.cs = false ∧ s.drv.intEn = true ∧ s.drv.xfer = none := by
  have hselected : chipSelected s.drv.state = false := by rcases hs with hs | hs <;> rw [hs] <;> rfl
  have hmasked : lineMasked s.drv.state = false := by rcases hs with hs | hs <;> rw [hs] <;> rfl
  exact ⟨h.cs.trans hselected, h.intEn.trans (by rw [hmasked]; rfl), h.xfer_none hselected⟩

/-- `set_state` from a packet waiting for dispatch, or from `Idle`, to a quiet state (R161, R165, R206). -/
theorem EngineSound.setState_quiet {s : State} {d : DrvState} (h : EngineSound s)
    (hs : s.drv.state = .eventReady ∨ s.drv.state = .idle) (hd : quiet d = true)
    (hpend : ∀ b, commandPending d = some b → s.drv.pendingCommand.isSome = b) : EngineSound (setState d s) := by
  obtain ⟨hcs, hint, hxfer⟩ := h.released hs
  exact .of_quiet h.params hd hcs hint hxfer hpend

/-! ### What the sequencer's operations do to its invariant -/

/-- A built command frame is even, at least ten bytes long and fits TX when its unpadded length plus one does (R64,
R102, R108). -/
theorem length_commandBytes_bounds {p : Params} {opcode : Opcode} {args : List Byte}
    (hb : 5 + (4 + args.length) + 1 ≤ p.bufSize) :
    (commandBytes p opcode args).length % 2 = 0 ∧ 10 ≤ (commandBytes p opcode args).length ∧
      (commandBytes p opcode args).length ≤ p.bufSize := by
  rw [length_commandBytes, paddedLength_eq]
  omega

/-- The same of a data frame (R64, R103, R108). -/
theorem length_dataBytes_bounds {p : Params} {dopcode : Byte} {args data : List Byte}
    (hi : frameDataInvalid p args data = false) :
    (dataBytes p dopcode args data).length % 2 = 0 ∧ 10 ≤ (dataBytes p dopcode args data).length ∧
      (dataBytes p dopcode args data).length ≤ p.bufSize := by
  simp only [frameDataInvalid, Bool.or_eq_false_iff, decide_eq_false_iff_not] at hi
  obtain ⟨-, hb⟩ := hi
  rw [length_dataBytes, paddedLength_eq]
  omega

/-- A length that fits a buffer is held as itself (R24). -/
theorem toNat_ofNat_of_le_bufSize {p : Params} (h : p.wf = true) {n : Nat} (hn : n ≤ p.bufSize) :
    (BitVec.ofNat 16 n).toNat = n := by
  have := (Params.sound h).bufHigh
  simp only [BitVec.toNat_ofNat]
  omega

theorem EngineSound.issueDeferred {s : State} (h : EngineSound s) (hs : s.drv.state = .idle) :
    EngineSound (issueDeferred s) := by
  obtain ⟨-, hint, -⟩ := h.released (.inr hs)
  exact h.congr (by simp [engineView, Machine.issueDeferred, hint])

/-- ISSUE_COMMAND, accepted or not (R121). -/
theorem EngineSound.issueCommand {s : State} (h : EngineSound s) (opcode : Opcode) (args : List Byte) :
    EngineSound (issueCommand opcode args s).1 := by
  have hc := issueCommand_cases opcode args s
  generalize Machine.issueCommand opcode args s = r at hc
  cases hc with
  | busy | tooLong => exact h
  | deferred _ hs _ _ => exact h.issueDeferred hs
  | unframed _ _ ha _ hb =>
    have := (Params.sound h.params).bufLow
    omega
  | issued _ hs _ _ hb tx _ =>
    have hlen := length_commandBytes_bounds (opcode := opcode) hb
    have ⟨_, _, hfits⟩ := hlen
    have hheld := toNat_ofNat_of_le_bufSize h.params hfits
    exact {
      params := h.params
      cs := rfl
      intEn := rfl
      xfer := h.xfer_none (by rw [hs]; rfl)
      frame := fun _ => by
        show (BitVec.ofNat 16 _).toNat % 2 = 0 ∧ 10 ≤ (BitVec.ofNat 16 _).toNat ∧ (BitVec.ofNat 16 _).toNat ≤ _
        rwa [hheld]
      fits := by simp [commandIssued]
      pending := by rintro _ ⟨⟩; rfl }

/-- ISSUE_DATA, accepted or not (R122). -/
theorem EngineSound.issueData {s : State} (h : EngineSound s) (dopcode : Byte) (args data : List Byte) :
    EngineSound (issueData dopcode args data s).1 := by
  have hc := issueData_cases dopcode args data s
  generalize Machine.issueData dopcode args data s = r at hc
  cases hc with
  | busy | invalid => exact h
  | deferred _ hs _ _ => exact h.issueDeferred hs
  | issued hp hs hi _ tx _ =>
    have hlen := length_dataBytes_bounds (dopcode := dopcode) hi
    have ⟨_, _, hfits⟩ := hlen
    have hheld := toNat_ofNat_of_le_bufSize h.params hfits
    rw [← heldLength_of_le (hfits.trans (Params.sound h.params).bufHigh)] at hheld
    exact {
      params := h.params
      cs := rfl
      intEn := rfl
      xfer := h.xfer_none (by rw [hs]; rfl)
      frame := fun _ => by
        show (heldLength _).toNat % 2 = 0 ∧ 10 ≤ (heldLength _).toNat ∧ (heldLength _).toNat ≤ _
        rwa [hheld]
      fits := by simp [dataIssued]
      pending := by
        rintro _ ⟨⟩
        show s.drv.pendingCommand.isSome = false
        rw [hp]
        rfl }

theorem EngineSound.wlanConnectWith {s : State} (h : EngineSound s) (args : List Byte) :
    EngineSound (wlanConnectWith args s).1 := by
  unfold Machine.wlanConnectWith
  split
  · exact h
  · exact h.issueCommand _ _

/-- Everything START can do with arguments that can be framed (R120). -/
theorem startWith_cases (args : List Byte) (s : State) (hwf : s.cfg.wf = true) (ha : args.length ≤ 255) :
    startWith args s = raise .invalidState s ∨
      startWith args s = finish .held { s with env := s.env.afterRead } ∨
      s.drv.state = .init ∧ ∃ tx sent, startWith args s = started args tx sent s := by
  by_cases hs : s.drv.state = .init
  · cases hl : s.env.level with
    | idle =>
      have hread : (readIrqLevel (driveChipEn true (driveIntEn false s))).1 = .idle := hl
      refine .inr (.inl ?_)
      unfold startWith
      rw [if_neg (by simp [hs])]
      simp only [hread]
    | asserted =>
      have := (Params.sound hwf).bufLow
      obtain ⟨tx, -, heq⟩ := startWith_started args s hs hl ha (by omega)
      exact .inr (.inr ⟨hs, tx, _, heq⟩)
  · exact .inl (if_pos hs)

theorem EngineSound.startWith {s : State} (h : EngineSound s) {args : List Byte} (ha : args.length ≤ 255) :
    EngineSound (startWith args s) := by
  rcases startWith_cases args s h.params ha with heq | heq | ⟨hs, tx, sent, heq⟩ <;> rw [heq]
  · exact h.congr rfl
  · exact h.congr rfl
  · exact .of_quiet h.params rfl rfl rfl (h.xfer_none (by rw [hs]; rfl)) (by rintro _ ⟨⟩; rfl)

/-- The read-header sequence sets every register the invariant reads but the pending command, which `ReadingHeader`
leaves open (R126). -/
theorem EngineSound.readHeaderSequence {s : State} (h : EngineSound s) : EngineSound (readHeaderSequence s) := by
  rw [readHeaderSequence_eq]
  exact {
    params := h.params
    cs := rfl
    intEn := rfl
    xfer := rfl
    frame := nofun
    fits := by simp
    pending := nofun }

/-- In `CommandRequest` and `DataRequest` the frame that stands in TX goes out (R124, R125). -/
theorem EngineSound.sendFrame {s : State} (h : EngineSound s) {d : DrvState}
    (hd : s.drv.state = .commandRequest ∧ d = .sendingCommand ∨ s.drv.state = .dataRequest ∧ d = .sendingData) :
    EngineSound (requestXfer .tx s.drv.transmitLength.toNat (setState d (driveIntEn false s))) := by
  have hcs := h.cs
  have hpend := h.pending
  have hframe := h.frame
  rcases hd with ⟨hs, rfl⟩ | ⟨hs, rfl⟩ <;> rw [hs] at hcs hpend hframe <;> exact {
    params := h.params
    cs := hcs
    intEn := rfl
    xfer := rfl
    frame := hframe
    fits := by simp
    pending := hpend }

theorem EngineSound.onInterrupt {s : State} (h : EngineSound s) : EngineSound (onInterrupt s) := by
  have hc : EngineSound (countInterrupt s) := h.congr rfl
  unfold Machine.onInterrupt
  dsimp only
  generalize countInterrupt s = u at hc
  cases hs : u.drv.state with
  | commandRequest => exact hc.sendFrame (.inl ⟨hs, rfl⟩)
  | dataRequest => exact hc.sendFrame (.inr ⟨hs, rfl⟩)
  | startSequence | awaitingReply | idle | receivingData => exact hc.readHeaderSequence
  | init | sendingCommand | sendingData | readingHeader | readingPayload | eventReady => exact hc.congr rfl

/-- A packet that fits RX waits for dispatch once the chip is released (R133). -/
theorem EngineSound.finishReceive_of_fits {s : State} (hwf : s.cfg.wf = true) (hxfer : s.drv.xfer = none)
    (hfits : 5 + receivedLength s ≤ s.cfg.bufSize) : EngineSound (finishReceive s) := by
  rw [finishReceive_eq]
  exact {
    params := hwf
    cs := rfl
    intEn := rfl
    xfer := hxfer
    frame := nofun
    fits := fun _ => hfits
    pending := nofun }

/-- After a header a payload that fits RX is read, or there is none and the packet waits (R131). -/
theorem EngineSound.completeReadingHeader {s t : State} (hwf : s.cfg.wf = true) (hcs : s.drv.cs = true)
    (hint : s.drv.intEn = false) (hxfer : s.drv.xfer = none)
    (hc : completeReadingHeader s = some t) : EngineSound t := by
  have hlow := (Params.sound hwf).bufLow
  have hlen : receivedLength (countBytesRx spiHdrLen s) = receivedLength s := rfl
  unfold Machine.completeReadingHeader at hc
  simp only [hlen, countBytesRx_cfg] at hc
  split at hc
  · next hzero =>
    cases hc
    exact .finishReceive_of_fits hwf hxfer (by rw [hlen, countBytesRx_cfg]; omega)
  · split at hc
    · cases hc
    · next hfits =>
      cases hc
      exact {
        params := hwf
        cs := hcs
        intEn := hint
        xfer := rfl
        frame := nofun
        fits := fun _ => Nat.le_of_not_lt hfits
        pending := nofun }

/-- What an `Rx` transaction stores leaves the header in `RX[0..4]` and with it the received length (R65, R132). -/
theorem receivedLength_closeXfer_rx (n : Nat) (rx : List Byte) (s : State) :
    receivedLength (closeXfer (transportDone ⟨.rx, n⟩ rx s)) = receivedLength s := by
  rw [closeXfer_transportDone]
  refine receivedLength_congr rfl fun a ha => ?_
  exact (memRead_bufWriteBytes _ _ _ _ _).trans (if_neg (by simp only [spiHdrLen]; omega))

/-- The end of the transaction in flight (R128 to R132). -/
theorem EngineSound.completeTransfer {s t : State} {x : Xfer} {rx : List Byte} (h : EngineSound s)
    (hx : s.drv.xfer = some x) (hc : completeTransfer x rx s = some t) : EngineSound t := by
  have hdrv : (closeXfer (transportDone x rx s)).drv =
      { s.drv with xfer := none, statSpiCompletions := s.drv.statSpiCompletions + 1 } := by
    rw [closeXfer_transportDone]
  have hcfg : (closeXfer (transportDone x rx s)).cfg = s.cfg := by rw [closeXfer_transportDone]
  have hrecv : x.kind = .rx → receivedLength (closeXfer (transportDone x rx s)) = receivedLength s := by
    obtain ⟨kind, n⟩ := x
    rintro ⟨⟩
    exact receivedLength_closeXfer_rx n rx s
  have hof : transferOf s = some x := h.xfer ▸ hx
  unfold Machine.completeTransfer at hc
  dsimp only at hc
  generalize closeXfer (transportDone x rx s) = u at hdrv hcfg hrecv hc
  have hwf : u.cfg.wf = true := hcfg ▸ h.params
  have hxfer : u.drv.xfer = none := by rw [hdrv]
  have hstate : u.drv.state = s.drv.state := by rw [hdrv]
  have hpend : u.drv.pendingCommand = s.drv.pendingCommand := by rw [hdrv]
  rw [hstate] at hc
  cases hs : s.drv.state <;> simp only [transferOf, hs, reduceCtorEq] at hof hc
  case sendingCommand | sendingData =>
    cases hc
    exact .of_quiet hwf rfl rfl rfl hxfer fun b hb => (congrArg _ hpend).trans (h.pending b (by rw [hs]; exact hb))
  case readingHeader =>
    refine .completeReadingHeader hwf ?_ ?_ hxfer hc
    · rw [hdrv]; exact h.cs.trans (by rw [hs]; rfl)
    · rw [hdrv]; exact h.intEn.trans (by rw [hs]; rfl)
  case readingPayload =>
    cases hc
    cases hof
    refine .finishReceive_of_fits hwf hxfer ?_
    show 5 + receivedLength u ≤ u.cfg.bufSize
    rw [hrecv rfl, hcfg]
    exact h.fits (.inl hs)

/-! ### The socket manager's invariant, register by register -/

/-- `TableInv`, each part by its name. -/
structure TableSound (s : State) : Prop where
  count : s.sm.count ≤ sockSlots
  sockets : ∀ k ∈ s.sm.table, socketSound s.cfg k = true
  current : ∀ i, s.sm.current = some i → i.val < s.sm.count ∧ s.drv.pendingCommand.isSome = true
  select : s.sm.selectPending = true → s.drv.pendingCommand = some s.cfg.opcSelect

theorem tableInv_iff (s : State) : TableInv s ↔ TableSound s := by
  have current : currentSound s = true ↔
      ∀ i, s.sm.current = some i → i.val < s.sm.count ∧ s.drv.pendingCommand.isSome = true := by
    cases h : s.sm.current <;> simp [currentSound, h]
  have select : selectSound s = true ↔
      (s.sm.selectPending = true → s.drv.pendingCommand = some s.cfg.opcSelect) := by
    cases h : s.sm.selectPending <;> simp [selectSound, h]
  unfold TableInv
  rw [List.all_eq_true, current, select]
  exact ⟨fun ⟨hcount, hsockets, hcurrent, hselect⟩ => ⟨hcount, hsockets, hcurrent, hselect⟩,
    fun ⟨hcount, hsockets, hcurrent, hselect⟩ => ⟨hcount, hsockets, hcurrent, hselect⟩⟩

/-- All that the socket manager's invariant reads of the state. -/
def tableView (s : State) : Params × SocketManager × Option Opcode := (s.cfg, s.sm, s.drv.pendingCommand)

theorem TableSound.congr {s t : State} (h : TableSound s) (hv : tableView t = tableView s) : TableSound t := by
  simp only [tableView, Prod.mk.injEq] at hv
  obtain ⟨hcfg, hsm, hpend⟩ := hv
  constructor
  · rw [hsm]; exact h.count
  · rw [hsm, hcfg]; exact h.sockets
  · rw [hsm, hpend]; exact h.current
  · rw [hsm, hpend, hcfg]; exact h.select

/-- With no command pending no socket is current and no select outstanding (R45). -/
theorem TableSound.of_none_pending {s : State} (h : TableSound s) (hp : s.drv.pendingCommand = none) :
    s.sm.current = none ∧ s.sm.selectPending = false := by
  constructor
  · cases hc : s.sm.current with
    | none => rfl
    | some i => have := (h.current i hc).2; simp [hp] at this
  · cases hc : s.sm.selectPending with
    | false => rfl
    | true => have := h.select hc; simp [hp] at this

/-- A command becomes pending where none was; the socket manager is as it was (R120, R121). -/
theorem TableSound.record {s t : State} (h : TableSound s) (hp : s.drv.pendingCommand = none) (hcfg : t.cfg = s.cfg)
    (hsm : t.sm = s.sm) : TableSound t := by
  obtain ⟨hcurrent, hselect⟩ := h.of_none_pending hp
  constructor
  · rw [hsm]; exact h.count
  · rw [hsm, hcfg]; exact h.sockets
  · rw [hsm, hcurrent]; nofun
  · rw [hsm, hselect]; nofun

/-- A socket's context is sound when its descriptor is unset until it is created, and its state none of the optional
branch's four (R40, R200). -/
theorem socketSound_iff (p : Params) (k : Socket) :
    socketSound p k = true ↔ (k.state = .init ∨ k.state = .creating → k.descriptor = p.descInvalid) ∧
      k.state ≠ .binding ∧ k.state ≠ .bound ∧ k.state ≠ .listening ∧ k.state ≠ .accepting := by
  cases h : k.state <;> simp [socketSound, Socket.hasDescriptor, h]

/-! ### What the sequencer's operations do to the table's invariant -/

theorem TableSound.issueCommand {s : State} (h : TableSound s) (opcode : Opcode) (args : List Byte) :
    TableSound (issueCommand opcode args s).1 := by
  have hc := issueCommand_cases opcode args s
  generalize Machine.issueCommand opcode args s = r at hc
  cases hc with
  | busy | tooLong => exact h
  | deferred | unframed => exact h.congr rfl
  | issued hp => exact h.record hp rfl rfl

/-- An accepted command is the pending one (R121). -/
theorem issueCommand_pending {opcode : Opcode} {args : List Byte} {s : State}
    (hr : (issueCommand opcode args s).2 = .ok) :
    (issueCommand opcode args s).1.drv.pendingCommand = some opcode := by
  have hc := issueCommand_cases opcode args s
  generalize issueCommand opcode args s = r at hc hr
  cases hc with
  | issued => rfl
  | _ => cases hr

theorem issueData_tableView (dopcode : Byte) (args data : List Byte) (s : State) :
    tableView (issueData dopcode args data s).1 = tableView s := by
  have hc := issueData_cases dopcode args data s
  generalize issueData dopcode args data s = r at hc
  cases hc <;> rfl

theorem TableSound.wlanConnectWith {s : State} (h : TableSound s) (args : List Byte) :
    TableSound (wlanConnectWith args s).1 := by
  unfold Machine.wlanConnectWith
  split
  · exact h
  · exact h.issueCommand _ _

/-- START finds no command pending (R120), as `EngineSound` says of `Init`. -/
theorem TableSound.startWith {s : State} (h : TableSound s) (he : EngineSound s) {args : List Byte}
    (ha : args.length ≤ 255) : TableSound (startWith args s) := by
  rcases startWith_cases args s he.params ha with heq | heq | ⟨hs, tx, sent, heq⟩ <;> rw [heq]
  · exact h.congr rfl
  · exact h.congr rfl
  · have hp : s.drv.pendingCommand.isSome = false := he.pending false (by rw [hs]; rfl)
    exact h.record (by simpa using hp) rfl rfl

theorem readHeaderSequence_tableView (s : State) : tableView (readHeaderSequence s) = tableView s := by
  rw [readHeaderSequence_eq]
  rfl

theorem onInterrupt_tableView (s : State) : tableView (onInterrupt s) = tableView s := by
  unfold onInterrupt
  dsimp only
  cases (countInterrupt s).drv.state with
  | startSequence | awaitingReply | idle | receivingData => exact readHeaderSequence_tableView (countInterrupt s)
  | _ => rfl

theorem completeReadingHeader_tableView {s t : State} (hc : completeReadingHeader s = some t) :
    tableView t = tableView s := by
  unfold completeReadingHeader at hc
  dsimp only at hc
  split at hc
  · cases hc; rfl
  · split at hc
    · cases hc
    · cases hc; rfl

theorem completeTransfer_tableView {s t : State} {x : Xfer} {rx : List Byte} (hc : completeTransfer x rx s = some t) :
    tableView t = tableView s := by
  have hclosed : tableView (closeXfer (transportDone x rx s)) = tableView s := by
    rw [closeXfer_transportDone]
    rfl
  unfold completeTransfer at hc
  dsimp only at hc
  generalize closeXfer (transportDone x rx s) = u at hc hclosed
  rw [← hclosed]
  split at hc
  · cases hc; rfl
  · cases hc; rfl
  · exact completeReadingHeader_tableView hc
  · cases hc; rfl
  · cases hc; rfl

/-! ### What the socket table's operations do to the two invariants -/

/-- A change of a slot's context that keeps it sound. -/
def KeepsSound (p : Params) (k l : Socket) : Prop := socketSound p k = true → socketSound p l = true

/-- Past `Init` and `Creating` the descriptor is free, so every state but the optional branch's four will do. -/
theorem keepsSound_of_state {p : Params} {k l : Socket} (h : l.state = .created ∨ l.state = .connecting ∨
    l.state = .ready ∨ l.state = .closeWait ∨ l.state = .closing ∨ l.state = .failed) : KeepsSound p k l := by
  intro _
  rw [socketSound_iff]
  rcases h with h | h | h | h | h | h <;> simp [h]

/-- Back in `Init` the descriptor is unset (R197, R204). -/
theorem keepsSound_of_init {p : Params} {k l : Socket} (hs : l.state = .init) (hd : l.descriptor = p.descInvalid) :
    KeepsSound p k l := by
  intro _
  rw [socketSound_iff]
  simp [hs, hd]

/-- Neither the state nor the descriptor changes. -/
theorem keepsSound_of_eq {p : Params} {k l : Socket} (hs : l.state = k.state) (hd : l.descriptor = k.descriptor) :
    KeepsSound p k l := by
  intro h
  rw [socketSound_iff] at h ⊢
  rwa [hs, hd]

/-- At most one slot's context changes, and stays sound: what a reply, an event or received data does to the table. -/
inductive SlotChange (s : State) : State → Prop
  | none : SlotChange s s
  | update {i : Nat} {k : Socket} (f : Socket → Socket) (hk : s.sm.table[i]? = some k)
    (hf : KeepsSound s.cfg k (f k)) : SlotChange s (updateSocket i f s)

theorem SlotChange.engineView {s t : State} (h : SlotChange s t) : engineView t = engineView s := by
  cases h <;> rfl

theorem SlotChange.tableSound {s t : State} (h : SlotChange s t) (hs : TableSound s) : TableSound t := by
  cases h with
  | none => exact hs
  | @update i k f hk hf =>
    refine ⟨?_, fun l hl => ?_, fun j hj => ?_, hs.select⟩
    · rw [count_updateSocket]; exact hs.count
    · rw [updateSocket_eq i f s k hk] at hl
      rcases List.mem_or_eq_of_mem_set hl with hl | rfl
      · exact hs.sockets l hl
      · exact hf (hs.sockets k (List.mem_of_getElem? hk))
    · rw [count_updateSocket]; exact hs.current j hj

/-- What the turn of a slot or an application's operation on it does: one change of its context, or a command issued
for it, which changes the context when it is accepted (R193). -/
inductive SlotTurn (s : State) : State → Prop
  | change {t : State} (h : SlotChange s t) : SlotTurn s t
  | issue {i : Nat} {k : Socket} (opcode : Opcode) (args : List Byte) (f : Socket → Socket)
    (hk : s.sm.table[i]? = some k) (hf : KeepsSound s.cfg k (f k)) : SlotTurn s (issueThen i opcode args f s)

theorem issueThen_engineView (i : Nat) (opcode : Opcode) (args : List Byte) (f : Socket → Socket) (s : State) :
    engineView (issueThen i opcode args f s) = engineView (issueCommand opcode args s).1 := by
  rw [issueThen_eq]
  cases (issueCommand opcode args s).2 <;> rfl

theorem SlotTurn.engineSound {s t : State} (h : SlotTurn s t) (hs : EngineSound s) : EngineSound t := by
  cases h with
  | change hc => exact hs.congr hc.engineView
  | issue opcode args f => exact (hs.issueCommand opcode args).congr (issueThen_engineView _ _ _ _ _)

/-- A slot in use becomes current while a command is pending (R36, R193). -/
theorem TableSound.setCurrent {s : State} (h : TableSound s) {i : Nat} (hi : i < s.sm.count)
    (hp : s.drv.pendingCommand.isSome = true) : TableSound (setCurrent (some (slotIndex i)) s) := by
  refine ⟨h.count, h.sockets, fun j hj => ?_, h.select⟩
  rw [slotIndex_of_lt (Nat.lt_of_lt_of_le hi h.count)] at hj
  cases hj
  exact ⟨hi, hp⟩

theorem SlotTurn.tableSound {s t : State} (h : SlotTurn s t) (hs : TableSound s) : TableSound t := by
  cases h with
  | change hc => exact hc.tableSound hs
  | @issue i k opcode args f hk hf =>
    have hu := hs.issueCommand opcode args
    have hsm := issueCommand_sm opcode args s
    have hcfg := issueCommand_cfg opcode args s
    have hpend := issueCommand_pending (opcode := opcode) (args := args) (s := s)
    rw [issueThen_eq]
    cases hr : (Machine.issueCommand opcode args s).2 with
    | err e => exact hu
    | ok =>
      have hi : i < (Machine.issueCommand opcode args s).1.sm.count := by
        rw [hsm]
        exact (List.getElem?_eq_some_iff.1 hk).1
      refine SlotChange.tableSound (.update (k := k) f ?_ ?_) (hu.setCurrent hi (by rw [hpend hr]; rfl))
      · rw [setCurrent_sm, hsm]; exact hk
      · rw [setCurrent_cfg, hcfg]; exact hf

theorem slotTurn_smSlot (dt : Word32) (i : Nat) (s : State) : SlotTurn s (smSlot dt i s) := by
  unfold smSlot
  cases hk : socketAt s i with
  | none => exact .change .none
  | some k =>
    dsimp only
    cases hs : k.state with
    | init =>
      refine .issue _ _ _ hk fun h => ?_
      rw [socketSound_iff] at h ⊢
      simpa using h.1 (.inl hs)
    | created =>
      dsimp only [smCreated]
      split
      · exact .issue _ _ _ hk (keepsSound_of_state (by simp))
      · exact .change (.update _ hk (keepsSound_of_state (by simp)))
    | failed =>
      dsimp only [smFailed]
      split
      · exact .change (.update _ hk (keepsSound_of_init rfl rfl))
      · exact .change (.update _ hk (keepsSound_of_eq rfl rfl))
    | ready =>
      dsimp only [smReady]
      split
      · exact .issue _ _ _ hk (keepsSound_of_eq rfl rfl)
      · exact .change .none
    | closeWait => exact .issue _ _ _ hk (keepsSound_of_state (by simp))
    | _ => exact .change .none

/-- What every slot's turn and the select keep, `SM_POLL` keeps (R194). -/
theorem smPoll_keeps {P : State → Prop} (turn : ∀ s t, SlotTurn s t → P s → P t)
    (select : ∀ s, P s → P (smSelect s)) (dt : Word32) {s : State} (h : P s) : P (smPoll dt s) := by
  refine select _ ?_
  generalize List.range s.sm.count = slots
  induction slots generalizing s with
  | nil => exact h
  | cons i rest ih => exact ih (turn s _ (slotTurn_smSlot dt i s) h)

theorem EngineSound.smSelect {s : State} (h : EngineSound s) : EngineSound (smSelect s) := by
  rw [smSelect_eq]
  split
  · have hu := h.issueCommand s.cfg.opcSelect (argsSelect s.cfg.codec (selectMask s.sm.table))
    dsimp only
    split
    · exact hu.congr rfl
    · exact hu
  · exact h

/-- The select is outstanding when it is the pending command (R201). -/
theorem TableSound.smSelect {s : State} (h : TableSound s) : TableSound (smSelect s) := by
  rw [smSelect_eq]
  split
  · have hu := h.issueCommand s.cfg.opcSelect (argsSelect s.cfg.codec (selectMask s.sm.table))
    dsimp only
    split
    · next hr =>
      refine ⟨hu.count, hu.sockets, hu.current, fun _ => ?_⟩
      rw [setSelectPending_drv, setSelectPending_cfg, issueCommand_cfg]
      exact issueCommand_pending hr
    · exact hu
  · exact h

theorem TableSound.sockAdd {s : State} (h : TableSound s) (family type protocol : Word32) (address : List Byte) :
    TableSound (sockAdd family type protocol address s) := by
  unfold Machine.sockAdd
  split
  · exact h.congr rfl
  · next hfull =>
    have hcount := h.count
    refine ⟨?_, fun k hk => ?_, fun i hi => ?_, h.select⟩
    · simp only [finish_sm, SocketManager.count, List.length_append, List.length_singleton] at hfull hcount ⊢
      omega
    · rcases List.mem_append.1 hk with hk | hk
      · exact h.sockets k hk
      · rw [List.mem_singleton.1 hk]
        simp [socketSound_iff, newSocket]
    · obtain ⟨hlt, hp⟩ := h.current i hi
      refine ⟨?_, hp⟩
      simp only [finish_sm, SocketManager.count, List.length_append, List.length_singleton] at hlt ⊢
      omega

/-- An operation that issues a command for a slot in use, then raises the refusal or changes the slot's context, is a
turn of the slot and what it returns. -/
theorem slotTurn_of_sockIssue {s o : State} {i : Nat} {k : Socket} (opcode : Opcode) (args : List Byte)
    (f : Socket → Socket) (hk : s.sm.table[i]? = some k) (hf : KeepsSound s.cfg k (f k))
    (hok : ∀ t, sockIssue i opcode args s = (t, .ok) → o = finish .ok (updateSocket i f t))
    (herr : ∀ t e, sockIssue i opcode args s = (t, .err e) → o = raise e t) :
    ∃ r t, SlotTurn s t ∧ o = finish r t := by
  refine ⟨Spec.returned (sockIssue i opcode args s).2, _, .issue opcode args f hk hf, ?_⟩
  unfold issueThen
  rcases hr : sockIssue i opcode args s with ⟨t, _ | e⟩
  · exact hok t hr
  · exact herr t e hr

/-- SOCK_CLOSE is the turn of its slot and what it returns (R210). -/
theorem sockClose_turn (i : Nat) (s : State) : ∃ r t, SlotTurn s t ∧ sockClose i s = finish r t := by
  unfold sockClose
  cases hk : socketAt s i with
  | none => exact ⟨_, s, .change .none, rfl⟩
  | some k =>
    dsimp only
    split
    · exact ⟨_, s, .change .none, rfl⟩
    · refine slotTurn_of_sockIssue s.cfg.opcClose (argsClose s.cfg.codec k.descriptor)
        (fun l => { l with state := .closing }) hk (keepsSound_of_state (by simp)) (fun t hr => ?_) fun t e hr => ?_
      · rw [hr]; rfl
      · rw [hr]

/-- SOCK_RECV is the turn of its slot and what it returns (R211). -/
theorem sockRecv_turn (i length : Nat) (s : State) : ∃ r t, SlotTurn s t ∧ sockRecv i length s = finish r t := by
  unfold sockRecv
  cases hk : socketAt s i with
  | none => exact ⟨_, s, .change .none, rfl⟩
  | some k =>
    dsimp only
    split
    · exact ⟨_, s, .change .none, rfl⟩
    · refine slotTurn_of_sockIssue s.cfg.opcRecv (argsRecv s.cfg.codec k.descriptor length)
        (fun l => { l with readable := false }) hk (keepsSound_of_eq rfl rfl) (fun t hr => ?_) fun t e hr => ?_
      · rw [hr]; rfl
      · rw [hr]

/-- SEND_TO is refused or is ISSUE_DATA, and what it returns (R212). -/
theorem sendTo_cases (i : Nat) (data address : List Byte) (s : State) :
    (∃ e, sendTo i data address s = raise e s) ∨
      ∃ args, sendTo i data address s = finishStatus (issueData s.cfg.dopcSendto args data s) := by
  unfold sendTo
  cases socketAt s i with
  | none => exact .inl ⟨_, rfl⟩
  | some k =>
    dsimp only
    split
    · exact .inl ⟨_, rfl⟩
    · exact .inr ⟨_, rfl⟩

/-! ### Replies, events and data -/

/-- Two named commands have two opcodes (R7). -/
theorem opcodeOf_ne {p : Params} (h : p.wf = true) {a b : CmdName} (hab : a ≠ b) : p.opcodeOf a ≠ p.opcodeOf b :=
  fun he => hab ((Params.sound h).opcodeOf_inj he)

theorem slotChange_replyTo (cur : Option Nat) (expected : SockState) (f : Socket → Socket) (s : State)
    (hf : ∀ k, k.state = expected → KeepsSound s.cfg k (f k)) : SlotChange s (replyTo cur expected f s) := by
  unfold replyTo
  cases cur with
  | none => exact .none
  | some i =>
    dsimp only
    cases hk : socketAt s i with
    | none => exact .none
    | some k =>
      dsimp only
      split
      · next hs => exact .update f hk (hf k hs)
      · exact .none

theorem slotChange_replyCreate (args : List Byte) (cur : Option Nat) (s : State) :
    SlotChange s (replyCreate args cur s) := by
  unfold replyCreate
  split
  · exact .none
  · exact slotChange_replyTo _ _ _ _ fun _ _ => keepsSound_of_state (by simp)

theorem slotChange_replyConnect (args : List Byte) (cur : Option Nat) (s : State) :
    SlotChange s (replyConnect args cur s) := by
  unfold replyConnect
  split
  · exact .none
  · split <;> exact slotChange_replyTo _ _ _ _ fun _ _ => keepsSound_of_state (by simp)

theorem slotChange_replyClose (cur : Option Nat) (s : State) : SlotChange s (replyClose cur s) :=
  slotChange_replyTo _ _ _ _ fun _ _ => keepsSound_of_init rfl rfl

/-- No sound context is in a state the bind and listen replies change (R200, R207). -/
theorem slotChange_replyServer {s : State} (hwf : s.cfg.wf = true) (opcode : Opcode) (cur : Option Nat) :
    SlotChange s (replyServer opcode cur s) := by
  rw [replyServer_eq opcode cur s ⟨opcodeOf_ne hwf (a := .bind) (b := .listen) (by decide),
    opcodeOf_ne hwf (a := .bind) (b := .accept) (by decide),
    opcodeOf_ne hwf (a := .listen) (b := .accept) (by decide)⟩]
  split
  · refine slotChange_replyTo _ _ _ _ fun k hk hsound => ?_
    obtain ⟨-, hbinding, -⟩ := (socketSound_iff _ _).1 hsound
    exact absurd hk hbinding
  · split
    · refine slotChange_replyTo _ _ _ _ fun k hk hsound => ?_
      obtain ⟨-, -, -, hlistening, -⟩ := (socketSound_iff _ _).1 hsound
      exact absurd hk hlistening
    · split
      · exact slotChange_replyTo _ _ _ _ fun _ _ => keepsSound_of_state (by simp)
      · exact .none

theorem slotChange_sockCloseWait (d : Word32) (s : State) : SlotChange s (sockCloseWait d s) := by
  unfold sockCloseWait
  cases hl : sockLookup d s with
  | none => exact .none
  | some i =>
    obtain ⟨⟨k, hk, -⟩, -⟩ := (sockLookup_some d s i).1 hl
    exact .update _ hk (keepsSound_of_state (by simp))

theorem slotChange_onCloseWait (args : List Byte) (s : State) : SlotChange s (onCloseWait args s) := by
  unfold onCloseWait
  split
  · exact .none
  · exact slotChange_sockCloseWait _ s

theorem slotChange_sockData (dargs : List Byte) (m : Nat) (s : State) : SlotChange s (sockData dargs m s) := by
  unfold sockData
  split
  · exact .none
  · next d _ =>
    cases hl : sockLookup d s with
    | none => exact .none
    | some i =>
      obtain ⟨⟨k, hk, -⟩, -⟩ := (sockLookup_some d s i).1 hl
      exact .update _ hk (keepsSound_of_eq rfl rfl)

/-- Everything a reply to a socket command but the select's can do (R172). -/
theorem sockReply_cases {s : State} (hwf : s.cfg.wf = true) {opcode : Opcode} (hsel : opcode ≠ s.cfg.opcSelect)
    (args : List Byte) (cur : Option Nat) :
    SlotChange s (sockReply opcode args cur s) ∨ sockReply opcode args cur s = setState .receivingData s := by
  unfold sockReply
  split
  · exact .inl (slotChange_replyCreate _ _ _)
  · split
    · exact .inl (slotChange_replyConnect _ _ _)
    · split
      · exact .inl (slotChange_replyClose _ _)
      · split
        · exact .inr rfl
        · exact .inl (slotChange_replyServer hwf _ _)

/-- The select's reply is the reply of `opcSelect` (R172, R205). -/
theorem sockReply_select {s : State} (hwf : s.cfg.wf = true) (args : List Byte) (cur : Option Nat) :
    sockReply s.cfg.opcSelect args cur s = replySelect args s := by
  have hsocket : s.cfg.opcSelect ≠ s.cfg.opcSocket := opcodeOf_ne hwf (a := .select) (b := .socket) (by decide)
  have hconnect : s.cfg.opcSelect ≠ s.cfg.opcConnect := opcodeOf_ne hwf (a := .select) (b := .connect) (by decide)
  have hclose : s.cfg.opcSelect ≠ s.cfg.opcClose := opcodeOf_ne hwf (a := .select) (b := .close) (by decide)
  unfold sockReply
  rw [if_neg hsocket, if_neg hconnect, if_neg hclose, if_pos rfl]

theorem replySelect_engineView (args : List Byte) (s : State) : engineView (replySelect args s) = engineView s := by
  unfold replySelect
  dsimp only
  split <;> rfl

theorem keepsSound_markReadable (p : Params) (mask : Word32) (k : Socket) : KeepsSound p k (markReadable mask k) := by
  unfold markReadable
  split <;> exact keepsSound_of_eq rfl rfl

/-- After the select's reply none is outstanding, and the contexts are as sound as before (R205). -/
theorem TableSound.replySelect {s : State} (hcount : s.sm.count ≤ sockSlots)
    (hsockets : ∀ k ∈ s.sm.table, socketSound s.cfg k = true) (hcurrent : s.sm.current = none) (args : List Byte) :
    TableSound (replySelect args s) := by
  unfold Machine.replySelect
  dsimp only
  split
  · exact ⟨hcount, hsockets, by simp [hcurrent], by simp⟩
  · refine ⟨by simpa [SocketManager.count] using hcount, fun k hk => ?_, by simp [hcurrent], by simp⟩
    obtain ⟨l, hl, rfl⟩ := List.mem_map.1 hk
    exact keepsSound_markReadable _ _ _ (hsockets l hl)

/-! ### The dispatcher -/

/-- What a dispatch writes before it resumes: no register of the sequencer's invariant, and the table soundly. -/
structure Noted (s t : State) : Prop where
  engine : engineView t = engineView s
  table : TableSound s → TableSound t

theorem Noted.refl (s : State) : Noted s s := ⟨rfl, id⟩

theorem Noted.trans {s t u : State} (h : Noted s t) (g : Noted t u) : Noted s u :=
  ⟨g.engine.trans h.engine, g.table ∘ h.table⟩

theorem Noted.of_views {s t : State} (he : engineView t = engineView s) (ht : tableView t = tableView s) :
    Noted s t := ⟨he, fun h => h.congr ht⟩

theorem SlotChange.noted {s t : State} (h : SlotChange s t) : Noted s t := ⟨h.engineView, h.tableSound⟩

theorem noted_onDhcp (args : List Byte) (s : State) : Noted s (onDhcp args s) := by
  unfold onDhcp
  split
  · exact .refl s
  · exact .of_views rfl rfl

/-- Everything a dispatch can do: resume after what it notes, or handle the reply to the pending command (R160 to
R167, R175). -/
inductive DispatchCase (s : State) : State → Prop
  | resumed {t : State} (h : Noted s t) : DispatchCase s (resume t)
  | reply {t : State} (opcode : Opcode) (args : List Byte) (h : Noted s t)
    (hp : t.drv.pendingCommand = some opcode) : DispatchCase s (dispatchMatchingReply opcode args t).1

theorem dispatchDataWith_case (dopcode : Byte) (dargs data : List Byte) (m : Nat) (s : State) :
    DispatchCase s (dispatchDataWith dopcode dargs data m s).1 :=
  .resumed ((slotChange_sockData dargs m s).noted.trans (.of_views rfl rfl))

theorem dispatchUnsolicited_case (opcode : Opcode) (args : List Byte) {s t : State} (h : Noted s t) :
    DispatchCase s (dispatchUnsolicited opcode args t).1 := by
  have hcount : Noted s (countUnsolicited t) := h.trans (.of_views rfl rfl)
  unfold dispatchUnsolicited
  dsimp only
  split
  · exact .resumed (hcount.trans (noted_onDhcp args _))
  · split
    · exact .resumed (hcount.trans (slotChange_onCloseWait args _).noted)
    · exact .resumed hcount

theorem dispatchEventWith_case (opcode : Opcode) (args : List Byte) (n : Nat) (s : State) :
    DispatchCase s (dispatchEventWith opcode args n s).1 := by
  have hnote : Noted s (reportEvent opcode args n s) := .of_views rfl rfl
  unfold dispatchEventWith
  dsimp only
  split
  · split
    · next hp => exact .reply opcode args hnote hp
    · exact .resumed hnote
  · exact dispatchUnsolicited_case opcode args hnote

theorem dispatch_case (s : State) : DispatchCase s (dispatch s).1 := by
  unfold dispatch dispatchData dispatchEvent
  split
  · exact .resumed (.refl s)
  · split
    · split
      · exact .resumed (.refl s)
      · exact dispatchDataWith_case _ _ _ _ s
    · split
      · split
        · exact .resumed (.refl s)
        · exact dispatchEventWith_case _ _ _ s
      · exact .resumed (.refl s)

theorem EngineSound.resume {s : State} (h : EngineSound s) (hs : s.drv.state = .eventReady) :
    EngineSound (resume s) := by
  unfold Machine.resume
  split
  · next hp =>
    refine h.setState_quiet (.inl hs) rfl ?_
    rintro _ ⟨⟩
    exact Option.isSome_iff_ne_none.2 hp
  · next hp =>
    refine h.setState_quiet (.inl hs) rfl ?_
    rintro _ ⟨⟩
    rw [not_not.1 hp]
    rfl

theorem resume_tableView (s : State) : tableView (resume s) = tableView s := by
  unfold resume
  split <;> rfl

/-- R165's first lines. -/
theorem EngineSound.clearPending {s : State} (h : EngineSound s) (hs : s.drv.state = .eventReady) :
    EngineSound (clearPending s) := by
  obtain ⟨hcs, hint, hxfer⟩ := h.released (.inl hs)
  exact .of_quiet h.params rfl hcs hint hxfer (by rintro _ ⟨⟩; rfl)

theorem onBufferSize_views (args : List Byte) (s : State) :
    engineView (onBufferSize args s) = engineView s ∧ tableView (onBufferSize args s) = tableView s := by
  unfold onBufferSize
  split <;> exact ⟨rfl, rfl⟩

theorem EngineSound.onStatusGet {s : State} (h : EngineSound s) (args : List Byte) :
    EngineSound (onStatusGet args s) := by
  unfold Machine.onStatusGet
  split
  · exact h
  · next v _ =>
    have hv : EngineSound (recordWlanStatus v s) := h.congr rfl
    dsimp only
    split
    · exact hv.issueCommand _ _
    · exact hv

theorem TableSound.onStatusGet {s : State} (h : TableSound s) (args : List Byte) :
    TableSound (onStatusGet args s) := by
  unfold Machine.onStatusGet
  split
  · exact h
  · next v _ =>
    have hv : TableSound (recordWlanStatus v s) := h.congr rfl
    dsimp only
    split
    · exact hv.issueCommand _ _
    · exact hv

theorem EngineSound.sockReply {s : State} (h : EngineSound s) (hs : s.drv.state = .idle) (opcode : Opcode)
    (args : List Byte) (cur : Option Nat) : EngineSound (sockReply opcode args cur s) := by
  by_cases hsel : opcode = s.cfg.opcSelect
  · rw [hsel, sockReply_select h.params]
    exact h.congr (replySelect_engineView args s)
  · rcases sockReply_cases h.params hsel args cur with hc | heq
    · exact h.congr hc.engineView
    · rw [heq]
      refine h.setState_quiet (.inr hs) rfl ?_
      rintro _ ⟨⟩
      exact h.pending false (by rw [hs]; rfl)

theorem EngineSound.dispatchMatchingReply {s : State} (h : EngineSound s) (hs : s.drv.state = .eventReady)
    (opcode : Opcode) (args : List Byte) : EngineSound (dispatchMatchingReply opcode args s).1 := by
  have hc := h.clearPending hs
  unfold Machine.dispatchMatchingReply
  dsimp only
  split
  · exact hc.congr (onBufferSize_views args _).1
  · split
    · exact hc.onStatusGet args
    · split
      · exact hc.sockReply rfl opcode args _
      · split <;> exact hc

/-- The reply to any command but the select clears the command and its socket (R165). -/
theorem TableSound.clearPending {s : State} (h : TableSound s) (hsel : s.drv.pendingCommand ≠ some s.cfg.opcSelect) :
    TableSound (clearPending s) := by
  refine ⟨h.count, h.sockets, nofun, fun hp => absurd (h.select hp) hsel⟩

/-- The reply to the pending command; a select outstanding is answered by the select's (R45, R165, R205). -/
theorem TableSound.dispatchMatchingReply {s : State} (h : TableSound s) (hwf : s.cfg.wf = true) {opcode : Opcode}
    (hp : s.drv.pendingCommand = some opcode) (args : List Byte) :
    TableSound (dispatchMatchingReply opcode args s).1 := by
  unfold Machine.dispatchMatchingReply
  dsimp only
  by_cases hsel : opcode = s.cfg.opcSelect
  · have hsock : isSocketOpcode s.cfg opcode = true := by simp [isSocketOpcode, hsel]
    obtain ⟨hbuf, hstat, -, -⟩ := socketOpcode_ne (Params.sound hwf) hsock
    have hreply := sockReply_select (s := Machine.clearPending s) hwf args (s.sm.current.map Fin.val)
    rw [clearPending_cfg] at hreply
    rw [clearPending_cfg, if_neg hbuf, if_neg hstat, if_pos hsock, hsel, hreply]
    exact .replySelect (s := Machine.clearPending s) h.count h.sockets rfl args
  · have hc : TableSound (Machine.clearPending s) := h.clearPending (by simpa [hp] using hsel)
    split
    · exact hc.congr (onBufferSize_views args _).2
    · split
      · exact hc.onStatusGet args
      · split
        · rcases sockReply_cases (s := Machine.clearPending s) hwf hsel args (s.sm.current.map Fin.val) with hr | heq
          · exact hr.tableSound hc
          · rw [heq]
            exact hc.congr rfl
        · split <;> exact hc

theorem Noted.engineSound_eventReady {s t : State} (h : Noted s t) (hs : EngineSound s) (hr : s.drv.state = .eventReady) :
    EngineSound t ∧ t.drv.state = .eventReady := by
  have hv := h.engine
  simp only [engineView, Prod.mk.injEq] at hv
  obtain ⟨-, -, hstate, -⟩ := hv
  exact ⟨hs.congr h.engine, hstate.trans hr⟩

theorem DispatchCase.engineSound {s t : State} (h : DispatchCase s t) (hs : EngineSound s)
    (hr : s.drv.state = .eventReady) : EngineSound t := by
  cases h with
  | resumed hn =>
    obtain ⟨he, hstate⟩ := hn.engineSound_eventReady hs hr
    exact he.resume hstate
  | reply opcode args hn _ =>
    obtain ⟨he, hstate⟩ := hn.engineSound_eventReady hs hr
    exact he.dispatchMatchingReply hstate opcode args

theorem DispatchCase.tableSound {s t : State} (h : DispatchCase s t) (hs : TableSound s) (hwf : s.cfg.wf = true) :
    TableSound t := by
  cases h with
  | resumed hn => exact (hn.table hs).congr (resume_tableView _)
  | @reply u opcode args hn hp =>
    have hcfg : u.cfg = s.cfg := congrArg Prod.fst hn.engine
    exact (hn.table hs).dispatchMatchingReply (hcfg ▸ hwf) hp args

/-! ### The polling loop -/

theorem EngineSound.pollDispatch {s : State} (h : EngineSound s) : EngineSound (pollDispatch s) := by
  unfold Machine.pollDispatch
  split
  · next hs => exact (dispatch_case s).engineSound h hs
  · exact h

theorem TableSound.pollDispatch {s : State} (h : TableSound s) (hwf : s.cfg.wf = true) :
    TableSound (pollDispatch s) := by
  unfold Machine.pollDispatch
  split
  · exact (dispatch_case s).tableSound h hwf
  · exact h

theorem EngineSound.pollDrain {s : State} (h : EngineSound s) : EngineSound (pollDrain s) := by
  have hclear : EngineSound (setInterruptPending false s) := h.congr rfl
  unfold Machine.pollDrain
  split
  · exact hclear.readHeaderSequence
  · exact h

theorem pollDrain_tableView (s : State) : tableView (pollDrain s) = tableView s := by
  unfold pollDrain
  split
  · exact readHeaderSequence_tableView (setInterruptPending false s)
  · rfl

/-- Everything the status timer can do: move on, or move on and issue the status-get (R138). -/
theorem pollStatusTimer_cases (dt : Word32) (s : State) :
    pollStatusTimer dt s = advanceStatusTimer dt s ∨
      ∃ v, pollStatusTimer dt s =
        let t := (issueCommand s.cfg.opcStatusGet [] (advanceStatusTimer dt s)).1
        { t with drv := { t.drv with statusTimer := v } } := by
  unfold pollStatusTimer
  dsimp only
  split
  · rw [advanceStatusTimer_cfg]
    rcases issueCommand s.cfg.opcStatusGet [] (advanceStatusTimer dt s) with ⟨t, _ | e⟩
    · exact .inr ⟨0, rfl⟩
    · exact .inr ⟨t.drv.statusTimer, rfl⟩
  · exact .inl rfl

theorem EngineSound.pollStatusTimer {s : State} (h : EngineSound s) (dt : Word32) :
    EngineSound (pollStatusTimer dt s) := by
  have hadv : EngineSound (advanceStatusTimer dt s) := h.congr rfl
  rcases pollStatusTimer_cases dt s with heq | ⟨v, heq⟩ <;> rw [heq]
  · exact hadv
  · exact (hadv.issueCommand s.cfg.opcStatusGet []).congr rfl

theorem TableSound.pollStatusTimer {s : State} (h : TableSound s) (dt : Word32) :
    TableSound (pollStatusTimer dt s) := by
  have hadv : TableSound (advanceStatusTimer dt s) := h.congr rfl
  rcases pollStatusTimer_cases dt s with heq | ⟨v, heq⟩ <;> rw [heq]
  · exact hadv
  · exact (hadv.issueCommand s.cfg.opcStatusGet []).congr rfl

theorem EngineSound.pollSocketManager {s : State} (h : EngineSound s) (dt : Word32) :
    EngineSound (pollSocketManager dt s) := by
  unfold Machine.pollSocketManager
  split
  · exact smPoll_keeps (fun _ _ => SlotTurn.engineSound) (fun _ => EngineSound.smSelect) dt h
  · exact h

theorem TableSound.pollSocketManager {s : State} (h : TableSound s) (dt : Word32) :
    TableSound (pollSocketManager dt s) := by
  unfold Machine.pollSocketManager
  split
  · exact smPoll_keeps (fun _ _ => SlotTurn.tableSound) (fun _ => TableSound.smSelect) dt h
  · exact h

theorem EngineSound.poll {s : State} (h : EngineSound s) (dt : Word32) : EngineSound (poll dt s) :=
  (h.pollDispatch.pollDrain.pollStatusTimer dt).pollSocketManager dt

theorem TableSound.poll {s : State} (h : TableSound s) (hwf : s.cfg.wf = true) (dt : Word32) :
    TableSound (poll dt s) :=
  (((h.pollDispatch hwf).congr (pollDrain_tableView _)).pollStatusTimer dt).pollSocketManager dt

/-! ### Every agent's operation, and every step -/

theorem finishStatus_views (r : State × Status) :
    engineView (finishStatus r) = engineView r.1 ∧ tableView (finishStatus r) = tableView r.1 := by
  obtain ⟨t, _ | e⟩ := r <;> exact ⟨rfl, rfl⟩

/-- ON_TRANSPORT_COMPLETE that answers a next state (R128, R134). -/
theorem execOnTransportComplete_cases {rx : List Byte} {s t : State}
    (h : execOnTransportComplete rx s = .next t) :
    t = raise .invalidState s ∨
      ∃ x u, s.drv.xfer = some x ∧ completeTransfer x rx s = some u ∧ t = finish .nothing u := by
  unfold execOnTransportComplete at h
  split at h
  · cases h; exact .inl rfl
  · next x hx =>
    cases hc : completeTransfer x rx s with
    | none => rw [hc] at h; cases h
    | some u => rw [hc] at h; cases h; exact .inr ⟨x, u, hx, hc, rfl⟩

/-- Every agent's operation keeps the sequencer's invariant. -/
theorem EngineSound.exec {s t : State} (h : EngineSound s) {i : Instr} (hi : byAgent i = true)
    (he : exec i s = .next t) : EngineSound t := by
  refine byAgent_cases (P := fun i => Machine.exec i s = .next t → EngineSound t) ?start ?issueCommand ?issueData
    ?poll ?wlanConnect ?getWlanStatus ?getBuffers ?getIpConfig ?sockAdd ?sockClose ?sockRecv ?sendTo ?onInterrupt
    ?onTransportComplete i hi he
  case start =>
    rintro ⟨⟩
    exact h.startWith (Params.sound h.params).startArgs
  case issueCommand =>
    rintro opcode args ⟨⟩
    exact (h.issueCommand opcode args).congr (finishStatus_views _).1
  case issueData =>
    rintro dopcode args data ⟨⟩
    exact (h.issueData dopcode args data).congr (finishStatus_views _).1
  case poll =>
    rintro dt ⟨⟩
    exact (h.poll dt).congr rfl
  case wlanConnect =>
    rintro ⟨⟩
    exact (h.wlanConnectWith _).congr (finishStatus_views _).1
  case getWlanStatus | getBuffers | getIpConfig =>
    rintro ⟨⟩
    exact h.congr rfl
  case sockAdd =>
    rintro family type protocol address ⟨⟩
    unfold sockAdd
    split <;> exact h.congr rfl
  case sockClose =>
    rintro slot ⟨⟩
    obtain ⟨r, u, hturn, heq⟩ := sockClose_turn slot s
    rw [heq]
    exact (hturn.engineSound h).congr rfl
  case sockRecv =>
    rintro slot length ⟨⟩
    obtain ⟨r, u, hturn, heq⟩ := sockRecv_turn slot length s
    rw [heq]
    exact (hturn.engineSound h).congr rfl
  case sendTo =>
    rintro slot data address ⟨⟩
    rcases sendTo_cases slot data address s with ⟨e, heq⟩ | ⟨args, heq⟩ <;> rw [heq]
    · exact h.congr rfl
    · exact (h.issueData _ args data).congr (finishStatus_views _).1
  case onInterrupt =>
    rintro ⟨⟩
    exact h.onInterrupt.congr rfl
  case onTransportComplete =>
    intro rx he
    rcases execOnTransportComplete_cases he with rfl | ⟨x, u, hx, hc, rfl⟩
    · exact h.congr rfl
    · exact (h.completeTransfer hx hc).congr rfl

/-- With the sequencer's invariant, every agent's operation keeps the socket manager's. -/
theorem TableSound.exec {s t : State} (h : TableSound s) (hs : EngineSound s) {i : Instr} (hi : byAgent i = true)
    (he : exec i s = .next t) : TableSound t := by
  refine byAgent_cases (P := fun i => Machine.exec i s = .next t → TableSound t) ?start ?issueCommand ?issueData ?poll
    ?wlanConnect ?getWlanStatus ?getBuffers ?getIpConfig ?sockAdd ?sockClose ?sockRecv ?sendTo ?onInterrupt
    ?onTransportComplete i hi he
  case start =>
    rintro ⟨⟩
    exact h.startWith hs (Params.sound hs.params).startArgs
  case issueCommand =>
    rintro opcode args ⟨⟩
    exact (h.issueCommand opcode args).congr (finishStatus_views _).2
  case issueData =>
    rintro dopcode args data ⟨⟩
    exact h.congr ((finishStatus_views _).2.trans (issueData_tableView dopcode args data s))
  case poll =>
    rintro dt ⟨⟩
    exact (h.poll hs.params dt).congr rfl
  case wlanConnect =>
    rintro ⟨⟩
    exact (h.wlanConnectWith _).congr (finishStatus_views _).2
  case getWlanStatus | getBuffers | getIpConfig =>
    rintro ⟨⟩
    exact h.congr rfl
  case sockAdd =>
    rintro family type protocol address ⟨⟩
    exact h.sockAdd family type protocol address
  case sockClose =>
    rintro slot ⟨⟩
    obtain ⟨r, u, hturn, heq⟩ := sockClose_turn slot s
    rw [heq]
    exact (hturn.tableSound h).congr rfl
  case sockRecv =>
    rintro slot length ⟨⟩
    obtain ⟨r, u, hturn, heq⟩ := sockRecv_turn slot length s
    rw [heq]
    exact (hturn.tableSound h).congr rfl
  case sendTo =>
    rintro slot data address ⟨⟩
    rcases sendTo_cases slot data address s with ⟨e, heq⟩ | ⟨args, heq⟩ <;> rw [heq]
    · exact h.congr rfl
    · exact h.congr ((finishStatus_views _).2.trans (issueData_tableView _ args data s))
  case onInterrupt =>
    rintro ⟨⟩
    exact h.congr (onInterrupt_tableView s)
  case onTransportComplete =>
    intro rx he
    rcases execOnTransportComplete_cases he with rfl | ⟨x, u, hx, hc, rfl⟩
    · exact h.congr rfl
    · exact (h.congr (completeTransfer_tableView hc)).congr rfl

/-- What does not read the environment and every agent's operation keeps, every step keeps (R12). -/
theorem step_keeps {P : State → Prop} (env : ∀ s e, P s → P { s with env := e })
    (agent : ∀ i s t, byAgent i = true → P s → exec i s = .next t → P t) {s t : State}
    (ha : agentsOnly s = true) (h : P s) (hstep : step s = .next t) : P t := by
  rcases step_cases hstep with ⟨e, rfl⟩ | ⟨i, e, u, f, hrun, hexec, rfl⟩
  · exact env s e h
  · obtain ⟨hi, -⟩ := nextEvent_byAgent ha hrun
    exact env u f (agent i _ u hi (env s e h) hexec)

end Sys2Proof.Machine

namespace Sys2Proof.Machine

open Sys2Proof.Spec

/-! ### What no operation takes back -/

/-- What a later state has kept of an earlier one, whatever happened between them (R29 to R31, R35, R41, R44, R190,
R247). -/
structure Grown (s t : State) : Prop where
  counters : CountersGrow s.drv t.drv
  table : TableKept s.sm.table t.sm.table
  dhcp : s.drv.dhcpComplete = true → t.drv.dhcpComplete = true
  chip : s.drv.chipEn = true → t.drv.chipEn = true

theorem countersGrow_refl (a : Driver) : CountersGrow a a := by simp [CountersGrow]

theorem countersGrow_trans {a b c : Driver} (h : CountersGrow a b) (g : CountersGrow b c) : CountersGrow a c := by
  unfold CountersGrow at *
  omega

theorem TableKept.trans {a b c : List Socket} (h : TableKept a b) (g : TableKept b c) : TableKept a c := by
  intro i k hk
  obtain ⟨l, hl, hkl⟩ := h i k hk
  obtain ⟨m, hm, hlm⟩ := g i l hl
  exact ⟨m, hm, hkl.trans hlm⟩

theorem TableKept.length_le {a b : List Socket} (h : TableKept a b) : a.length ≤ b.length := by
  refine Nat.le_of_not_lt fun hlt => ?_
  obtain ⟨l, hl, -⟩ := h b.length a[b.length] (List.getElem?_eq_getElem hlt)
  exact Nat.lt_irrefl _ (List.getElem?_eq_some_iff.1 hl).1

theorem TableKept.slotsStay {m n : SocketManager} (h : TableKept m.table n.table) : SlotsStay m n := by
  intro i k hk
  obtain ⟨l, hl, hkl⟩ := h i k hk
  exact ⟨l, hl, hkl.family, hkl.type, hkl.protocol, hkl.address, hkl.count, hkl.bytes⟩

theorem Grown.refl (s : State) : Grown s s := ⟨countersGrow_refl _, .refl _, id, id⟩

theorem Grown.trans {s t u : State} (h : Grown s t) (g : Grown t u) : Grown s u :=
  ⟨countersGrow_trans h.counters g.counters, h.table.trans g.table, g.dhcp ∘ h.dhcp, g.chip ∘ h.chip⟩

theorem DriverKept.countersGrow {a b : Driver} (h : DriverKept a b) : CountersGrow a b :=
  ⟨h.interrupts, h.spiCompletions, h.commands, h.events, h.unsolicited, h.bytesTx, h.bytesRx, h.unhandled⟩

theorem Move.grown {s t : State} (m : Move s t) : Grown s t := by
  cases m with
  | drv d h => exact ⟨h.countersGrow, .refl _, h.dhcp, h.chip⟩
  | state d => exact ⟨countersGrow_refl _, .refl _, id, id⟩
  | sm m h => exact ⟨countersGrow_refl _, h, id, id⟩
  | _ => exact ⟨countersGrow_refl _, .refl _, id, id⟩

theorem Moves.grown {s t : State} (h : Moves s t) : Grown s t := by
  induction h with
  | refl => exact .refl s
  | tail _ m ih => exact ih.trans m.grown

/-! ### Reset -/

theorem engineInv_reset : EngineInv State.reset := by unfold EngineInv; decide

theorem tableInv_reset : TableInv State.reset := by unfold TableInv; decide

theorem buffersCanonical_reset : BuffersCanonical State.reset := ⟨rfl, rfl⟩

theorem buffersInRange_reset : BuffersInRange State.reset := ⟨rfl, rfl⟩

/-! ### The statements' words for the framer's bytes -/

/-- A transport header's five bytes, of a length that is a natural number (R61, R81). -/
theorem transportHeaderBytes_ofNat (type : Byte) (n : Nat) :
    transportHeaderBytes type (BitVec.ofNat 16 n) = [type, hi n, lo n, 0x00#8, 0x00#8] := by
  rw [transportHeaderBytes, hi8_ofNat, lo8_ofNat]
  rfl

theorem pad_eq_padding (p : Params) (n : Nat) : pad p (5 + n) = padding p n := rfl

theorem held_eq_heldLength (n : Nat) : held n = heldLength n := if_congr (by omega) rfl rfl

theorem slotOf_eq_slotIndex (n : Nat) : slotOf n = slotIndex n := rfl

/-- The frame of R66 is what FRAME_COMMAND writes. -/
theorem commandFrame_eq_commandBytes (p : Params) (opcode : Opcode) (args : List Byte) :
    commandFrame p opcode args = commandBytes p opcode args := by
  have hpad : pad p (9 + args.length) = padding p (4 + args.length) := by
    rw [← pad_eq_padding, ← Nat.add_assoc]
  have hlen : 4 + args.length + (padding p (4 + args.length)).length = paddedLength (4 + args.length) := by
    rw [length_padding, paddedLength_eq]
  simp only [commandFrame, commandBytes, hpad, hlen, transportHeaderBytes_ofNat, commandPayload, lo8_eq, hi8_eq,
    List.append_assoc]
  rfl

theorem HoldsFrame.written {size : Nat} {before after : Memory} {bytes : List Byte}
    (h : HoldsFrame size before after bytes) (hlen : bytes.length ≤ size) : Written size before after 0 bytes := by
  intro x
  rw [h.read x]
  exact if_congr ⟨fun hx => ⟨Nat.zero_le x, by omega⟩, fun hx => by omega⟩ rfl rfl

/-- ISSUE_COMMAND meets R121 as the statements write it; with sound parameters every framing succeeds. -/
theorem issue_issueCommand (opcode : Opcode) (args : List Byte) {s : State} (hwf : s.cfg.wf = true) :
    Issue opcode args s (issueCommand opcode args s).1 (issueCommand opcode args s).2 := by
  have hc := issueCommand_cases opcode args s
  generalize issueCommand opcode args s = r at hc
  unfold Issue
  cases hc with
  | busy h => rw [if_pos h]; exact ⟨rfl, rfl⟩
  | tooLong hp hs h => rw [if_neg (by simp [hp, hs]), if_pos h]; exact ⟨rfl, rfl⟩
  | deferred hp hs ha h =>
    rw [if_neg (by simp [hp, hs]), if_neg (by omega), if_pos h]; exact ⟨rfl, rfl⟩
  | unframed hp hs ha h hb =>
    have := (Params.sound hwf).bufLow
    omega
  | issued hp hs ha h hb tx ht =>
    rw [if_neg (by simp [hp, hs]), if_neg (by omega), if_neg (by simp [h])]
    rw [← commandFrame_eq_commandBytes] at ht
    refine ⟨⟨ht.written ?_, ?_⟩, rfl⟩
    · rw [commandFrame_eq_commandBytes, length_commandBytes, paddedLength_eq]; omega
    · rw [commandFrame_eq_commandBytes]; rfl

/-! ### Operands the callers exclude (log 19) -/

/-- FRAME_TRANSPORT of any length, byte by byte: the header, the padding byte, and nothing past the end of TX. -/
theorem memRead_frameTransport (type : Byte) (payloadLen : Nat) (s : State) (x : Nat) :
    memRead (frameTransport type payloadLen s).1.tx x =
      if s.cfg.bufSize ≤ x then memRead s.tx x
      else if x < 5 then
        [type, hi (paddedLength payloadLen), lo (paddedLength payloadLen), 0x00#8, 0x00#8].getD x 0x00#8
      else if x = 5 + payloadLen ∧ x < 5 + paddedLength payloadLen then s.cfg.padByte
      else memRead s.tx x := by
  rw [frameTransport_eq, transportHeaderBytes_ofNat]
  simp only [memRead_bufWriteBytes, length_padding, List.length_cons, List.length_nil, Nat.zero_le, true_and,
    Nat.sub_zero, paddedLength_eq]
  by_cases hin : s.cfg.bufSize ≤ x
  · rw [if_neg (by omega), if_neg (by omega), if_pos hin]
  · rw [if_neg hin]
    by_cases hhdr : x < 5
    · rw [if_pos (by omega), if_pos hhdr]
      rfl
    · rw [if_neg (by omega), if_neg hhdr]
      by_cases hpad : x = 5 + payloadLen ∧ x < 5 + (payloadLen + (5 + payloadLen) % 2)
      · obtain ⟨rfl, hodd⟩ := hpad
        rw [if_pos (by omega), if_pos ⟨rfl, hodd⟩, padding, if_pos (by omega)]
        simp
      · rw [if_neg (by omega), if_neg hpad]

/-- A command issued for a free slot, and nothing else: `f` of the slot is not kept. -/
theorem issueThen_free {i : Nat} {s : State} (h : s.sm.count ≤ i) (opcode : Opcode) (args : List Byte)
    (f : Socket → Socket) : issueThen i opcode args f s = (sockIssue i opcode args s).1 := by
  rw [issueThen_eq, sockIssue_eq]
  cases (issueCommand opcode args s).2 with
  | err e => rfl
  | ok =>
    refine updateSocket_free _ _ _ ?_
    rw [setCurrent_sm, issueCommand_sm]
    exact h

/-- `sock_issue` as the statements write it of a free slot; it reads nothing of the slot (R193). -/
theorem issueForFree_sockIssue (i : Nat) (opcode : Opcode) (args : List Byte) {s : State} (hwf : s.cfg.wf = true) :
    IssueForFree i opcode args s (sockIssue i opcode args s).1 (sockIssue i opcode args s).2 := by
  have hissue := issue_issueCommand opcode args hwf
  rw [sockIssue_eq]
  cases hr : (issueCommand opcode args s).2 <;> rw [hr] at hissue
  case ok => exact ⟨_, hissue, by rw [slotOf_eq_slotIndex]; rfl⟩
  case err e => exact ⟨_, hissue, rfl⟩

/-- A per-slot rule that issues a command, run by itself on a free slot. -/
theorem onSlot_issueThen_free {i : Nat} {s : State} (h : s.sm.count ≤ i) (hwf : s.cfg.wf = true)
    {rule : Socket → State → State} {opcode : Opcode} {args : List Byte} {f : Socket → Socket}
    (hrule : rule (Config.freeSlot s.env.slotDraws) (drawSlot s) = issueThen i opcode args f (drawSlot s)) :
    ∃ t r, IssueForFree i opcode args (drawSlot s) t r ∧ onSlot i rule s = .next { t with result := .nothing } := by
  refine ⟨_, _, issueForFree_sockIssue i opcode args hwf, ?_⟩
  rw [onSlot_free i rule s h, hrule, issueThen_free (s := drawSlot s) h]
  rfl

/-- A per-slot rule that changes at most the slot's context, run by itself on a free slot. -/
theorem onSlot_unkept_free {i : Nat} {s : State} (h : s.sm.count ≤ i) {rule : Socket → State → State}
    (hrule : rule (Config.freeSlot s.env.slotDraws) (drawSlot s) = drawSlot s) :
    onSlot i rule s = .next { drawSlot s with result := .nothing } := by
  rw [onSlot_free i rule s h, hrule]
  rfl

end Sys2Proof.Machine

namespace Sys2Proof.StateInvariants

open Sys2Proof.Machine Sys2Proof.Spec

/-- Settles O9: `EngineSound` is kept by every agent's operation, and what is scheduled stays the agents'. -/
theorem stepKeepsTheEngineInvariant : Obligations.StepKeepsTheEngineInvariant := by
  intro s t hinv hstep
  obtain ⟨hagents, hsound⟩ := (engineInv_iff s).1 hinv
  refine (engineInv_iff t).2 ⟨step_agentsOnly hagents hstep, ?_⟩
  exact step_keeps (fun _ _ h => h.congr rfl) (fun _ _ _ hi h he => h.exec hi he) hagents hsound hstep

/-- Settles O10: the two invariants together are kept by every agent's operation. -/
theorem stepKeepsTheTableInvariant : Obligations.StepKeepsTheTableInvariant := by
  intro s t hinv htable hstep
  obtain ⟨hagents, hsound⟩ := (engineInv_iff s).1 hinv
  have hboth : EngineSound t ∧ TableSound t :=
    step_keeps (P := fun s => EngineSound s ∧ TableSound s)
      (fun _ _ ⟨he, ht⟩ => ⟨he.congr rfl, ht.congr rfl⟩)
      (fun _ _ _ hi ⟨he, ht⟩ hexec => ⟨he.exec hi hexec, ht.exec he hi hexec⟩)
      hagents ⟨hsound, (tableInv_iff s).1 htable⟩ hstep
  exact (tableInv_iff t).2 hboth.2

/-- Settles O17: every operation is a sequence of `Move`s, and none of these takes anything back. -/
theorem nothingIsTakenBack : Obligations.NothingIsTakenBack := by
  intro i s t hexec
  have hmoves := exec_moves i s t hexec
  have hgrown := hmoves.grown
  exact ⟨hmoves.cfg, hgrown.counters, hgrown.table.slotsStay, hgrown.table.length_le, hgrown.dhcp, hgrown.chip⟩

/-- Settles O7: the registers by evaluation of `State.reset`, the slot by that of `sockAdd` there. -/
theorem resetRegisters : Obligations.ResetRegisters :=
  ⟨by decide, by decide, by decide, by decide, rfl, fun _ _ _ _ => ⟨_, rfl, rfl⟩⟩

/-- Settles O8: each invariant evaluated at `State.reset`. -/
theorem resetMeetsTheInvariants : Obligations.ResetMeetsTheInvariants :=
  ⟨engineInv_reset, tableInv_reset, buffersCanonical_reset, buffersInRange_reset⟩

/-- Settles O26: `k` is the context the free slot's draw gives, and each rule is run on it. -/
theorem operandsTheCallersExcludeRun : Obligations.OperandsTheCallersExcludeRun := by
  refine ⟨fun type payloadLen s => ?frame, fun n s hfree hwf => ⟨fun opcode args => ?issue, ?rules⟩⟩
  case frame =>
    have htotal : 5 + payloadLen + (5 + payloadLen) % 2 = 5 + paddedLength payloadLen := by
      rw [paddedLength_eq]; omega
    simp only [htotal, Nat.add_sub_cancel_left, held_eq_heldLength]
    exact ⟨_, rfl, memRead_frameTransport type payloadLen s, rfl⟩
  case issue =>
    refine ⟨_, _, issueForFree_sockIssue n opcode args hwf, ?_⟩
    show Host.Outcome.next (finishStatus (sockIssue n opcode args s)) = _
    rcases sockIssue n opcode args s with ⟨t, _ | e⟩ <;> rfl
  case rules =>
    refine ⟨Config.freeSlot s.env.slotDraws, ?init, ?created, ?failed, ?ready, ?closeWait⟩
    case init => exact onSlot_issueThen_free hfree hwf rfl
    case created =>
      split
      · next htype => exact onSlot_issueThen_free hfree hwf (if_pos htype)
      · next htype =>
        exact onSlot_unkept_free hfree ((if_neg htype).trans (updateSocket_free n _ (drawSlot s) hfree))
    case failed =>
      refine fun dt => onSlot_unkept_free hfree ?_
      unfold smFailed
      split <;> exact updateSocket_free n _ (drawSlot s) hfree
    case ready =>
      split
      · next hread => exact onSlot_issueThen_free hfree hwf (if_pos hread)
      · next hread => exact onSlot_unkept_free hfree (if_neg hread)
    case closeWait => exact onSlot_issueThen_free hfree hwf rfl

end Sys2Proof.StateInvariants

/-! Memory: the two byte buffers (R60, R63, R66, R68, R71): every step keeps their form and range, who writes and reads
them while a transaction is in flight and while none is, the bytes a frame puts in TX and those a transaction puts in
RX (20_memory). -/

namespace Sys2Proof.Machine

open Sys2Proof.Spec

/-! ### What every operation keeps of the buffers, every step keeps -/

/-- What does not read the environment and every sequence of `Move`s keeps, every step keeps, whatever is scheduled. -/
theorem step_keeps_of_moves {P : State → Prop} (env : ∀ s e, P s → P { s with env := e })
    (moves : ∀ s t, Moves s t → P s → P t) {s t : State} (h : P s) (hstep : step s = .next t) : P t := by
  rcases step_cases hstep with ⟨e, rfl⟩ | ⟨i, e, u, f, -, hexec, rfl⟩
  · exact env s e h
  · exact env u f (moves _ u (exec_moves i _ u hexec) (env s e h))

/-! ### The bytes written, in the statements' words -/

theorem written_bufWriteBytes (size : Nat) (m : Memory) (a : Nat) (bytes : List Byte) :
    Written size m (bufWriteBytes size m a bytes) a bytes :=
  fun x => memRead_bufWriteBytes size m a x bytes

/-- The data frame of R66 is what FRAME_DATA writes. -/
theorem dataFrame_eq_dataBytes (p : Params) (dopcode : Byte) (args data : List Byte) :
    dataFrame p dopcode args data = dataBytes p dopcode args data := by
  have hpad : pad p (10 + args.length + data.length) = padding p (5 + args.length + data.length) := by
    rw [← pad_eq_padding]
    congr 1
    omega
  have hlen : 5 + args.length + data.length + (padding p (5 + args.length + data.length)).length =
      paddedLength (5 + args.length + data.length) := by
    rw [length_padding, paddedLength_eq]
  simp only [dataFrame, dataBytes, hpad, hlen, transportHeaderBytes_ofNat, dataPayload, dataPlen, lo8_ofNat, hi8_ofNat,
    List.append_assoc]
  rfl

theorem readHeaderFrame_eq (p : Params) : readHeaderFrame p = transportHeaderBytes p.spiOpRead 0 := rfl

theorem frameDataInvalid_iff (p : Params) (args data : List Byte) :
    frameDataInvalid p args data = true ↔ DataInvalid p args data := by
  simp only [frameDataInvalid, DataInvalid, dataPlen, Bool.or_eq_true, or_assoc]
  exact or_congr decide_eq_true_iff (or_congr decide_eq_true_iff decide_eq_true_iff)

/-- The bytes a transaction stores: those written out for the step, then free ones (log 14). -/
theorem supplied_eq_chipBytes (rx : List Byte) (n draws : Nat) : supplied rx n draws = chipBytes rx n draws := by
  apply List.ext_getElem?
  intro j
  by_cases hj : j < n
  · by_cases hrx : j < rx.length
    · rw [chipBytes, List.getElem?_append_left (by rw [List.length_take]; omega), List.getElem?_take_of_lt hj]
      simp [supplied, hj, hrx]
    · rw [chipBytes, List.getElem?_append_right (by rw [List.length_take]; omega), List.length_take,
        Nat.min_eq_right (by omega)]
      have hrest : j - rx.length < n - rx.length := by omega
      simp [supplied, hj, hrest, List.getElem?_eq_none (Nat.le_of_not_lt hrx)]
  · rw [List.getElem?_eq_none (by simp [supplied]; omega), List.getElem?_eq_none (by rw [length_chipBytes]; omega)]

/-! ### Frames (R101 to R103) -/

/-- A frame that fits TX, and its length beside it, is `Framed`. -/
theorem HoldsFrame.framed {s : State} {tx : Memory} {frame : List Byte}
    (h : HoldsFrame s.cfg.bufSize s.tx tx frame) (hlen : frame.length ≤ s.cfg.bufSize) :
    Framed frame s { s with tx := tx, drv := { s.drv with transmitLength := held frame.length } } :=
  ⟨h.written hlen, rfl⟩

/-- FRAME_COMMAND refused (R102). -/
theorem execFrameCommand_refused {opcode : Opcode} {args : List Byte} {s : State}
    (h : args.length > 255 ∨ 5 + (4 + args.length) + 1 > s.cfg.bufSize) :
    exec (.frameCommand opcode args) s = .next { s with result := .raised .invalid } := by
  have hexec : exec (.frameCommand opcode args) s = finishFrame s (frameCommand opcode args s) := rfl
  rcases frameCommand_cases opcode args s with ⟨-, hnone⟩ | ⟨ha, hb, -⟩
  · rw [hexec, hnone]
    rfl
  · omega

/-- FRAME_COMMAND of what fits (R102). -/
theorem execFrameCommand_built {opcode : Opcode} {args : List Byte} {s : State}
    (h : ¬(args.length > 255 ∨ 5 + (4 + args.length) + 1 > s.cfg.bufSize)) :
    ∃ t, Framed (commandFrame s.cfg opcode args) s t ∧ exec (.frameCommand opcode args) s =
      .next { t with result := .length (commandFrame s.cfg opcode args).length } := by
  have hexec : exec (.frameCommand opcode args) s = finishFrame s (frameCommand opcode args s) := rfl
  rcases frameCommand_cases opcode args s with ⟨hbad, -⟩ | ⟨ha, hb, tx, hsome, hread, hwf, hwithin⟩
  · exact absurd hbad h
  · have ⟨_, _, hfits⟩ := length_commandBytes_bounds (opcode := opcode) hb
    have hheld : held (commandBytes s.cfg opcode args).length =
        BitVec.ofNat 16 (commandBytes s.cfg opcode args).length := by
      refine if_pos ?_
      rw [length_commandBytes, paddedLength_eq]
      omega
    rw [commandFrame_eq_commandBytes]
    refine ⟨_, HoldsFrame.framed ⟨hread, hwf, hwithin⟩ hfits, ?_⟩
    rw [hexec, hsome, hheld]
    rfl

/-- FRAME_DATA refused (R103). -/
theorem execFrameData_refused {dopcode : Byte} {args data : List Byte} {s : State} (h : DataInvalid s.cfg args data) :
    exec (.frameData dopcode args data) s = .next { s with result := .raised .invalid } := by
  have hexec : exec (.frameData dopcode args data) s = finishFrame s (frameData dopcode args data s) := rfl
  have hnone : frameData dopcode args data s = none := if_pos ((frameDataInvalid_iff _ _ _).2 h)
  rw [hexec, hnone]
  rfl

/-- FRAME_DATA of what fits (R103). -/
theorem execFrameData_built {dopcode : Byte} {args data : List Byte} {s : State}
    (h : ¬DataInvalid s.cfg args data) :
    ∃ t, Framed (dataFrame s.cfg dopcode args data) s t ∧ exec (.frameData dopcode args data) s =
      .next { t with result := .length (dataFrame s.cfg dopcode args data).length } := by
  have hexec : exec (.frameData dopcode args data) s = finishFrame s (frameData dopcode args data s) := rfl
  rcases frameData_cases dopcode args data s with ⟨hbad, -⟩ | ⟨hvalid, tx, hsome, hread, hwf, hwithin⟩
  · exact absurd ((frameDataInvalid_iff _ _ _).1 hbad) h
  · have ⟨_, _, hfits⟩ := length_dataBytes_bounds (dopcode := dopcode) hvalid
    rw [dataFrame_eq_dataBytes]
    refine ⟨_, HoldsFrame.framed ⟨hread, hwf, hwithin⟩ hfits, ?_⟩
    rw [hexec, hsome, held_eq_heldLength]
    rfl

/-- FRAME_READ_HEADER (R101). -/
theorem framed_frameReadHeader (s : State) : Framed (readHeaderFrame s.cfg) s (frameReadHeader s) := by
  rw [frameReadHeader_eq, readHeaderFrame_eq]
  exact ⟨written_bufWriteBytes _ _ _ _, rfl⟩

/-! ### The end of a transaction (R65, R128) -/

theorem rxLength_eq_receivedLength (s : State) : rxLength s = receivedLength s := by
  rw [receivedLength_eq]
  unfold rxLength
  cases s.cfg.rxLenOffset <;> rfl

/-- ON_TRANSPORT_COMPLETE with a transaction in flight ends it (R128). -/
theorem execOnTransportComplete_of_xfer {s : State} {x : Xfer} (hx : s.drv.xfer = some x) (rx : List Byte) :
    exec (.onTransportComplete rx) s = finishCompletion (completeTransfer x rx s) := by
  simp only [exec, execOnTransportComplete, hx]

/-- ON_TRANSPORT_COMPLETE with a transaction in flight runs its state's rule once the transport has done its part and
the transaction is closed (R128). -/
theorem execOnTransportComplete_row {rx : List Byte} {s : State} {x : Xfer} {i : Instr} (hx : s.drv.xfer = some x)
    (hi : completionRow x.n s.drv.state = some i) :
    exec (.onTransportComplete rx) s = exec i (closeXfer (transportDone x rx s)) := by
  have hstate : (closeXfer (transportDone x rx s)).drv.state = s.drv.state := by rw [closeXfer_transportDone]
  rw [execOnTransportComplete_of_xfer hx, completeTransfer, hstate]
  cases hs : s.drv.state <;> rw [hs] at hi <;> cases hi <;> rfl

/-- A header whose packet fits RX ends without the fault (R131). -/
theorem completeReadingHeader_of_fits {s : State} (h : 5 + receivedLength s ≤ s.cfg.bufSize) :
    ∃ t, completeReadingHeader s = some t := by
  have hlen : receivedLength (countBytesRx spiHdrLen s) = receivedLength s := rfl
  unfold completeReadingHeader
  simp only [hlen, countBytesRx_cfg]
  split
  · exact ⟨_, rfl⟩
  · exact ⟨_, if_neg (by omega)⟩

/-- The rule of a state with a transaction in flight answers a next state, but for a header whose packet does not fit
RX. -/
theorem exec_completionRow_next {n : Nat} {d : DrvState} {i : Instr} {u : State} (hi : completionRow n d = some i)
    (hfits : d = .readingHeader → 5 + receivedLength u ≤ u.cfg.bufSize) : ∃ t, exec i u = .next t := by
  cases d <;> cases hi
  case sendingCommand | sendingData | readingPayload => exact ⟨_, rfl⟩
  case readingHeader =>
    obtain ⟨t, ht⟩ := completeReadingHeader_of_fits (hfits rfl)
    refine ⟨finish .nothing t, ?_⟩
    show finishCompletion (completeReadingHeader u) = _
    rw [ht]
    rfl

/-- What ending a transaction leaves in TX and adds to the count of completions. -/
def completionView (s : State) : Memory × Nat := (s.tx, s.drv.statSpiCompletions)

theorem completeReadingHeader_completionView {s t : State} (hc : completeReadingHeader s = some t) :
    completionView t = completionView s := by
  unfold completeReadingHeader at hc
  dsimp only at hc
  split at hc
  · cases hc; rfl
  · split at hc <;> cases hc
    rfl

/-- The end of a transaction leaves TX alone and counts one completion (R128). -/
theorem completeTransfer_completionView {s t : State} {x : Xfer} {rx : List Byte}
    (hc : completeTransfer x rx s = some t) : completionView t = (s.tx, s.drv.statSpiCompletions + 1) := by
  have hclosed : completionView (closeXfer (transportDone x rx s)) = (s.tx, s.drv.statSpiCompletions + 1) := by
    rw [closeXfer_transportDone]
    rfl
  unfold completeTransfer at hc
  dsimp only at hc
  generalize closeXfer (transportDone x rx s) = u at hc hclosed
  rw [← hclosed]
  split at hc
  · cases hc; rfl
  · cases hc; rfl
  · exact completeReadingHeader_completionView hc
  · cases hc; rfl
  · cases hc; rfl

/-! ### With no transaction in flight nothing writes RX (R68) -/

theorem rx_of_engineView {s t : State} (h : engineView t = engineView s) : t.rx = s.rx :=
  congrArg (fun v => v.2.1) h

theorem issueCommand_rx (opcode : Opcode) (args : List Byte) (s : State) :
    (issueCommand opcode args s).1.rx = s.rx := by
  have hc := issueCommand_cases opcode args s
  generalize issueCommand opcode args s = r at hc
  cases hc <;> rfl

theorem issueData_rx (dopcode : Byte) (args data : List Byte) (s : State) :
    (issueData dopcode args data s).1.rx = s.rx := by
  have hc := issueData_cases dopcode args data s
  generalize issueData dopcode args data s = r at hc
  cases hc <;> rfl

theorem wlanConnectWith_rx (args : List Byte) (s : State) : (wlanConnectWith args s).1.rx = s.rx := by
  unfold wlanConnectWith
  split
  · rfl
  · exact issueCommand_rx _ _ s

theorem finishStatus_rx (r : State × Status) : (finishStatus r).rx = r.1.rx :=
  rx_of_engineView (finishStatus_views r).1

theorem readHeaderSequence_rx (s : State) : (readHeaderSequence s).rx = s.rx := by rw [readHeaderSequence_eq]

theorem onInterrupt_rx (s : State) : (onInterrupt s).rx = s.rx := by
  unfold onInterrupt
  dsimp only
  cases (countInterrupt s).drv.state with
  | startSequence | awaitingReply | idle | receivingData => exact readHeaderSequence_rx (countInterrupt s)
  | _ => rfl

theorem SlotTurn.rx {s t : State} (h : SlotTurn s t) : t.rx = s.rx := by
  cases h with
  | change hc => exact rx_of_engineView hc.engineView
  | issue opcode args f =>
    exact (rx_of_engineView (issueThen_engineView _ _ _ _ _)).trans (issueCommand_rx opcode args s)

theorem smSelect_rx (s : State) : (smSelect s).rx = s.rx := by
  have hissue := issueCommand_rx s.cfg.opcSelect (argsSelect s.cfg.codec (selectMask s.sm.table)) s
  rw [smSelect_eq]
  split
  · dsimp only
    split <;> exact hissue
  · rfl

theorem onStatusGet_rx (args : List Byte) (s : State) : (onStatusGet args s).rx = s.rx := by
  unfold onStatusGet
  split
  · rfl
  · dsimp only
    split
    · exact issueCommand_rx _ _ _
    · rfl

theorem sockReply_rx {s : State} (hwf : s.cfg.wf = true) (opcode : Opcode) (args : List Byte) (cur : Option Nat) :
    (sockReply opcode args cur s).rx = s.rx := by
  by_cases hsel : opcode = s.cfg.opcSelect
  · rw [hsel, sockReply_select hwf]
    exact rx_of_engineView (replySelect_engineView args s)
  · rcases sockReply_cases hwf hsel args cur with hc | heq
    · exact rx_of_engineView hc.engineView
    · rw [heq]
      rfl

theorem dispatchMatchingReply_rx {s : State} (hwf : s.cfg.wf = true) (opcode : Opcode) (args : List Byte) :
    (dispatchMatchingReply opcode args s).1.rx = s.rx := by
  have hbuffers := rx_of_engineView (onBufferSize_views args (clearPending s)).1
  unfold dispatchMatchingReply
  dsimp only
  split
  · exact hbuffers
  · split
    · exact onStatusGet_rx args (clearPending s)
    · split
      · exact sockReply_rx (s := clearPending s) hwf opcode args _
      · split <;> rfl

theorem DispatchCase.rx {s t : State} (h : DispatchCase s t) (hwf : s.cfg.wf = true) : t.rx = s.rx := by
  cases h with
  | @resumed u hn =>
    have hresume : (resume u).rx = u.rx := by
      unfold resume
      split <;> rfl
    exact hresume.trans (rx_of_engineView hn.engine)
  | @reply u opcode args hn hp =>
    have hcfg : u.cfg = s.cfg := congrArg Prod.fst hn.engine
    exact (dispatchMatchingReply_rx (hcfg ▸ hwf) opcode args).trans (rx_of_engineView hn.engine)

theorem pollDispatch_rx {s : State} (hwf : s.cfg.wf = true) : (pollDispatch s).rx = s.rx := by
  unfold pollDispatch
  split
  · exact (dispatch_case s).rx hwf
  · rfl

theorem pollDrain_rx (s : State) : (pollDrain s).rx = s.rx := by
  unfold pollDrain
  split
  · exact readHeaderSequence_rx (setInterruptPending false s)
  · rfl

theorem pollStatusTimer_rx (dt : Word32) (s : State) : (pollStatusTimer dt s).rx = s.rx := by
  rcases pollStatusTimer_cases dt s with heq | ⟨v, heq⟩ <;> rw [heq]
  · rfl
  · exact issueCommand_rx _ _ (advanceStatusTimer dt s)

theorem pollSocketManager_rx (dt : Word32) (s : State) : (pollSocketManager dt s).rx = s.rx := by
  unfold pollSocketManager
  split
  · exact smPoll_keeps (P := fun t => t.rx = s.rx) (fun _ _ hturn h => hturn.rx.trans h)
      (fun t h => (smSelect_rx t).trans h) dt rfl
  · rfl

theorem poll_rx {s : State} (hwf : s.cfg.wf = true) (dt : Word32) : (poll dt s).rx = s.rx :=
  calc (poll dt s).rx
    _ = (pollStatusTimer dt (pollDrain (pollDispatch s))).rx := pollSocketManager_rx dt _
    _ = (pollDrain (pollDispatch s)).rx := pollStatusTimer_rx dt _
    _ = (pollDispatch s).rx := pollDrain_rx _
    _ = s.rx := pollDispatch_rx hwf

/-- With no transaction in flight no agent's operation writes RX (R68). -/
theorem exec_rx_of_no_transfer {s t : State} (h : EngineSound s) (hx : s.drv.xfer = none) {i : Instr}
    (hi : byAgent i = true) (he : exec i s = .next t) : t.rx = s.rx := by
  refine byAgent_cases (P := fun i => exec i s = .next t → t.rx = s.rx) ?start ?issueCommand ?issueData ?poll
    ?wlanConnect ?getWlanStatus ?getBuffers ?getIpConfig ?sockAdd ?sockClose ?sockRecv ?sendTo ?onInterrupt
    ?onTransportComplete i hi he
  case start =>
    rintro ⟨⟩
    rcases startWith_cases s.cfg.startArgs s h.params (Params.sound h.params).startArgs with
      heq | heq | ⟨-, tx, sent, heq⟩ <;> rw [heq] <;> rfl
  case issueCommand =>
    rintro opcode args ⟨⟩
    exact (finishStatus_rx _).trans (issueCommand_rx opcode args s)
  case issueData =>
    rintro dopcode args data ⟨⟩
    exact (finishStatus_rx _).trans (issueData_rx dopcode args data s)
  case poll =>
    rintro dt ⟨⟩
    exact poll_rx h.params dt
  case wlanConnect =>
    rintro ⟨⟩
    exact (finishStatus_rx _).trans (wlanConnectWith_rx _ s)
  case getWlanStatus | getBuffers | getIpConfig =>
    rintro ⟨⟩
    rfl
  case sockAdd =>
    rintro family type protocol address ⟨⟩
    unfold sockAdd
    split <;> rfl
  case sockClose =>
    rintro slot ⟨⟩
    obtain ⟨r, u, hturn, heq⟩ := sockClose_turn slot s
    rw [heq]
    exact hturn.rx
  case sockRecv =>
    rintro slot length ⟨⟩
    obtain ⟨r, u, hturn, heq⟩ := sockRecv_turn slot length s
    rw [heq]
    exact hturn.rx
  case sendTo =>
    rintro slot data address ⟨⟩
    rcases sendTo_cases slot data address s with ⟨e, heq⟩ | ⟨args, heq⟩ <;> rw [heq]
    · rfl
    · exact (finishStatus_rx _).trans (issueData_rx _ args data s)
  case onInterrupt =>
    rintro ⟨⟩
    exact onInterrupt_rx s
  case onTransportComplete =>
    intro rx he
    rcases execOnTransportComplete_cases he with rfl | ⟨x, u, hsome, -⟩
    · rfl
    · exact absurd (hx.symm.trans hsome) nofun

/-! ### While a transaction is in flight, what does not end it has no part in the buffers (R68) -/

/-- The states with a transaction in flight (R34). -/
def transferring : DrvState → Bool
  | .sendingCommand | .sendingData | .readingHeader | .readingPayload => true
  | _ => false

theorem EngineSound.transferring {s : State} (h : EngineSound s) (hx : s.drv.xfer ≠ none) :
    transferring s.drv.state = true := by
  rw [h.xfer] at hx
  revert hx
  unfold transferOf
  cases s.drv.state <;> simp [Machine.transferring]

/-- While a transaction is in flight START and every request are refused and no packet waits for dispatch. -/
theorem ne_of_transferring {d : DrvState} (h : transferring d = true) :
    d ≠ .init ∧ d ≠ .idle ∧ d ≠ .eventReady := by
  revert h
  cases d <;> decide

/-- The state with other contents of the two buffers. -/
def withBuffers (tx rx : Memory) (s : State) : State := { s with tx := tx, rx := rx }

@[simp] theorem withBuffers_cfg (tx rx : Memory) (s : State) : (withBuffers tx rx s).cfg = s.cfg := rfl
@[simp] theorem withBuffers_drv (tx rx : Memory) (s : State) : (withBuffers tx rx s).drv = s.drv := rfl
@[simp] theorem withBuffers_sm (tx rx : Memory) (s : State) : (withBuffers tx rx s).sm = s.sm := rfl

/-- In `s` the operation `f` reads and writes neither buffer: with any other contents it does the same and leaves them.
And it leaves the sequencer's state. -/
structure RunsAside (f : State → State) (s : State) : Prop where
  buffers : ∀ tx rx, f (withBuffers tx rx s) = withBuffers tx rx (f s)
  state : (f s).drv.state = s.drv.state

theorem RunsAside.id (s : State) : RunsAside (fun u => u) s := ⟨fun _ _ => rfl, rfl⟩

theorem RunsAside.comp {f g : State → State} {s : State} (hf : RunsAside f s) (hg : RunsAside g (f s)) :
    RunsAside (fun u => g (f u)) s where
  buffers tx rx := by rw [hf.buffers, hg.buffers]
  state := hg.state.trans hf.state

/-- An operation that does in `s`, whatever the buffers hold, what one that runs aside does, runs aside. -/
theorem RunsAside.of_eq {f g : State → State} {s : State} (hg : RunsAside g s)
    (heq : ∀ tx rx, f (withBuffers tx rx s) = g (withBuffers tx rx s)) : RunsAside f s := by
  have hs : f s = g s := heq s.tx s.rx
  exact ⟨fun tx rx => by rw [heq, hs, hg.buffers], by rw [hs, hg.state]⟩

theorem runsAside_finish (r : OpResult) (s : State) : RunsAside (finish r) s := ⟨fun _ _ => rfl, rfl⟩

theorem runsAside_raise (e : OpError) (s : State) : RunsAside (raise e) s := ⟨fun _ _ => rfl, rfl⟩

theorem runsAside_updateSocket (i : Nat) (f : Socket → Socket) (s : State) : RunsAside (updateSocket i f) s :=
  ⟨fun _ _ => rfl, rfl⟩

/-- Only in `Idle` is a command taken (R121). -/
theorem issueCommand_of_ne_idle {s : State} (h : s.drv.state ≠ .idle) (opcode : Opcode) (args : List Byte) :
    issueCommand opcode args s = (s, .err .busy) := if_pos (.inr h)

/-- Only in `Idle` is a data frame taken (R122). -/
theorem issueData_of_ne_idle {s : State} (h : s.drv.state ≠ .idle) (dopcode : Byte) (args data : List Byte) :
    issueData dopcode args data s = (s, .err .busy) := if_pos (.inr h)

theorem sockIssue_of_ne_idle {s : State} (h : s.drv.state ≠ .idle) (i : Nat) (opcode : Opcode) (args : List Byte) :
    sockIssue i opcode args s = (s, .err .busy) := by rw [sockIssue_eq, issueCommand_of_ne_idle h]

theorem issueThen_of_ne_idle {s : State} (h : s.drv.state ≠ .idle) (i : Nat) (opcode : Opcode) (args : List Byte)
    (f : Socket → Socket) : issueThen i opcode args f s = s := by rw [issueThen_eq, issueCommand_of_ne_idle h]

theorem smSelect_of_ne_idle {s : State} (h : s.drv.state ≠ .idle) : smSelect s = s := by
  rw [smSelect_eq, if_neg (by simp [driverFree, h])]

theorem pollStatusTimer_of_ne_idle {s : State} (h : s.drv.state ≠ .idle) (dt : Word32) :
    pollStatusTimer dt s = advanceStatusTimer dt s := if_neg (by simp [driverFree, h])

/-- Where commands are refused, an operation that only issues one for a slot does nothing. -/
theorem runsAside_of_issueThen {f : State → State} {s : State} (h : s.drv.state ≠ .idle)
    (hf : ∀ tx rx, ∃ i opcode args g, f (withBuffers tx rx s) = issueThen i opcode args g (withBuffers tx rx s)) :
    RunsAside f s := by
  refine (RunsAside.id s).of_eq fun tx rx => ?_
  obtain ⟨i, opcode, args, g, heq⟩ := hf tx rx
  exact heq.trans (issueThen_of_ne_idle (s := withBuffers tx rx s) h i opcode args g)

theorem runsAside_smInit (i : Nat) (k : Socket) {s : State} (h : s.drv.state ≠ .idle) : RunsAside (smInit i k) s :=
  runsAside_of_issueThen h fun _ _ => ⟨_, _, _, _, rfl⟩

theorem runsAside_smCreated (i : Nat) (k : Socket) {s : State} (h : s.drv.state ≠ .idle) :
    RunsAside (smCreated i k) s := by
  by_cases htype : k.type = s.cfg.typeStream
  · exact runsAside_of_issueThen h fun _ _ => ⟨_, _, _, _, if_pos htype⟩
  · exact (runsAside_updateSocket i (fun k => { k with state := .ready }) s).of_eq fun _ _ => if_neg htype

theorem runsAside_smFailed (i : Nat) (dt : Word32) (k : Socket) (s : State) : RunsAside (smFailed i dt k) s := by
  by_cases hdue : k.retryTimeout = 0
  · exact (runsAside_updateSocket i (fun k => { k with state := .init, descriptor := s.cfg.descInvalid }) s).of_eq
      fun _ _ => if_pos hdue
  · exact (runsAside_updateSocket i (fun k => { k with retryTimeout := countdown k.retryTimeout dt }) s).of_eq
      fun _ _ => if_neg hdue

theorem runsAside_smReady (i : Nat) (k : Socket) {s : State} (h : s.drv.state ≠ .idle) :
    RunsAside (smReady i k) s := by
  by_cases hread : k.readable = true
  · exact runsAside_of_issueThen h fun _ _ => ⟨_, _, _, _, if_pos hread⟩
  · exact (RunsAside.id s).of_eq fun _ _ => if_neg hread

theorem runsAside_smCloseWait (i : Nat) (k : Socket) {s : State} (h : s.drv.state ≠ .idle) :
    RunsAside (smCloseWait i k) s :=
  runsAside_of_issueThen h fun _ _ => ⟨_, _, _, _, rfl⟩

/-- While commands are refused a slot's turn changes its context or nothing (R194 to R200). -/
theorem runsAside_smSlot (dt : Word32) (i : Nat) {s : State} (h : s.drv.state ≠ .idle) :
    RunsAside (smSlot dt i) s := by
  cases hk : s.sm.table[i]? with
  | none => exact (RunsAside.id s).of_eq fun tx rx => by simp only [smSlot, socketAt, withBuffers_sm, hk]
  | some k =>
    cases hs : k.state with
    | init =>
      exact (runsAside_smInit i k h).of_eq fun tx rx => by simp only [smSlot, socketAt, withBuffers_sm, hk, hs]
    | created =>
      exact (runsAside_smCreated i k h).of_eq fun tx rx => by simp only [smSlot, socketAt, withBuffers_sm, hk, hs]
    | failed =>
      exact (runsAside_smFailed i dt k s).of_eq fun tx rx => by simp only [smSlot, socketAt, withBuffers_sm, hk, hs]
    | ready =>
      exact (runsAside_smReady i k h).of_eq fun tx rx => by simp only [smSlot, socketAt, withBuffers_sm, hk, hs]
    | closeWait =>
      exact (runsAside_smCloseWait i k h).of_eq fun tx rx => by simp only [smSlot, socketAt, withBuffers_sm, hk, hs]
    | _ => exact (RunsAside.id s).of_eq fun tx rx => by simp only [smSlot, socketAt, withBuffers_sm, hk, hs]

theorem runsAside_smSlots (dt : Word32) (slots : List Nat) {s : State} (h : s.drv.state ≠ .idle) :
    RunsAside (slots.foldl fun t i => smSlot dt i t) s := by
  induction slots generalizing s with
  | nil => exact .id s
  | cons i rest ih =>
    have hturn := runsAside_smSlot dt i h
    exact hturn.comp (ih (hturn.state ▸ h))

theorem runsAside_smSelect {s : State} (h : s.drv.state ≠ .idle) : RunsAside smSelect s :=
  (RunsAside.id s).of_eq fun tx rx => smSelect_of_ne_idle (s := withBuffers tx rx s) h

theorem runsAside_pollSocketManager (dt : Word32) {s : State} (h : s.drv.state ≠ .idle) :
    RunsAside (pollSocketManager dt) s := by
  by_cases hup : networkUp s = true
  · have hslots := runsAside_smSlots dt (List.range s.sm.count) h
    exact (hslots.comp (runsAside_smSelect (hslots.state ▸ h))).of_eq fun _ _ => if_pos hup
  · exact (RunsAside.id s).of_eq fun _ _ => if_neg hup

/-- While a transaction is in flight POLL advances the timer and runs the socket manager (R135 to R139). -/
theorem poll_of_transferring (dt : Word32) {s : State} (h : transferring s.drv.state = true) :
    poll dt s = pollSocketManager dt (advanceStatusTimer dt s) := by
  obtain ⟨-, hidle, hready⟩ := ne_of_transferring h
  have hdispatch : pollDispatch s = s := if_neg hready
  have hdrain : pollDrain s = s := by
    refine if_neg fun hd => absurd hd.2 ?_
    revert h
    cases s.drv.state <;> decide
  rw [poll, hdispatch, hdrain, pollStatusTimer_of_ne_idle hidle]

theorem runsAside_poll (dt : Word32) {s : State} (h : transferring s.drv.state = true) : RunsAside (poll dt) s := by
  have hadvance : RunsAside (advanceStatusTimer dt) s := ⟨fun _ _ => rfl, rfl⟩
  obtain ⟨-, hidle, -⟩ := ne_of_transferring h
  exact (hadvance.comp (runsAside_pollSocketManager dt hidle)).of_eq fun tx rx =>
    poll_of_transferring dt (s := withBuffers tx rx s) h

/-- While a transaction is in flight an interrupt is counted and latched (R127). -/
theorem runsAside_onInterrupt {s : State} (h : transferring s.drv.state = true) : RunsAside onInterrupt s := by
  have hlatch : RunsAside (fun u => irqUnhandled (countInterrupt u)) s := ⟨fun _ _ => rfl, rfl⟩
  refine hlatch.of_eq fun tx rx => ?_
  have hstate : (countInterrupt (withBuffers tx rx s)).drv.state = s.drv.state := rfl
  unfold onInterrupt
  dsimp only
  rw [hstate]
  cases hs : s.drv.state with
  | init | sendingCommand | sendingData | readingHeader | readingPayload | eventReady => rfl
  | commandRequest | dataRequest | startSequence | awaitingReply | idle | receivingData => rw [hs] at h; cases h

theorem runsAside_sockAdd (family type protocol : Word32) (address : List Byte) (s : State) :
    RunsAside (sockAdd family type protocol address) s := by
  refine ⟨fun tx rx => ?_, ?_⟩
  · unfold sockAdd
    rw [withBuffers_sm]
    split <;> rfl
  · unfold sockAdd
    split <;> rfl

/-- An operation that is refused whatever the buffers hold runs aside. -/
theorem runsAside_of_raises {f : State → State} {s : State}
    (h : ∃ e, ∀ tx rx, f (withBuffers tx rx s) = raise e (withBuffers tx rx s)) : RunsAside f s := by
  obtain ⟨e, he⟩ := h
  exact (runsAside_raise e s).of_eq he

theorem runsAside_sockClose (i : Nat) {s : State} (h : s.drv.state ≠ .idle) : RunsAside (sockClose i) s := by
  have hissue (tx rx : Memory) := sockIssue_of_ne_idle (s := withBuffers tx rx s) h
  refine runsAside_of_raises ?_
  cases hk : s.sm.table[i]? with
  | none => exact ⟨.invalid, fun tx rx => by simp only [sockClose, socketAt, withBuffers_sm, hk]⟩
  | some k =>
    by_cases hs : k.state ≠ .ready ∧ k.state ≠ .closeWait
    · exact ⟨.invalidState, fun tx rx => by simp only [sockClose, socketAt, withBuffers_sm, hk, if_pos hs]⟩
    · exact ⟨.busy, fun tx rx => by simp only [sockClose, socketAt, withBuffers_sm, hk, if_neg hs, hissue]⟩

theorem runsAside_sockRecv (i length : Nat) {s : State} (h : s.drv.state ≠ .idle) :
    RunsAside (sockRecv i length) s := by
  have hissue (tx rx : Memory) := sockIssue_of_ne_idle (s := withBuffers tx rx s) h
  refine runsAside_of_raises ?_
  cases hk : s.sm.table[i]? with
  | none => exact ⟨.invalid, fun tx rx => by simp only [sockRecv, socketAt, withBuffers_sm, hk]⟩
  | some k =>
    by_cases hs : k.state ≠ .ready
    · exact ⟨.invalidState, fun tx rx => by simp only [sockRecv, socketAt, withBuffers_sm, hk, if_pos hs]⟩
    · exact ⟨.busy, fun tx rx => by simp only [sockRecv, socketAt, withBuffers_sm, hk, if_neg hs, hissue]⟩

theorem runsAside_sendTo (i : Nat) (data address : List Byte) {s : State} (h : s.drv.state ≠ .idle) :
    RunsAside (sendTo i data address) s := by
  have hissue (tx rx : Memory) := issueData_of_ne_idle (s := withBuffers tx rx s) h
  refine runsAside_of_raises ?_
  cases hk : s.sm.table[i]? with
  | none => exact ⟨.invalid, fun tx rx => by simp only [sendTo, socketAt, withBuffers_sm, hk]⟩
  | some k =>
    by_cases hs : k.state ≠ .ready
    · exact ⟨.invalidState, fun tx rx => by simp only [sendTo, socketAt, withBuffers_sm, hk, if_pos hs]⟩
    · exact ⟨.busy, fun tx rx => by
          simp only [sendTo, socketAt, withBuffers_sm, hk, if_neg hs, hissue, finishStatus]⟩

/-- While a transaction is in flight every agent's operation but the completion runs aside (R68). -/
theorem exec_runsAside {s : State} (h : transferring s.drv.state = true) {i : Instr} (hi : byAgent i = true)
    (hc : ∀ rx, i ≠ .onTransportComplete rx) : ∃ f, (∀ u, exec i u = .next (f u)) ∧ RunsAside f s := by
  obtain ⟨hinit, hidle, -⟩ := ne_of_transferring h
  refine byAgent_cases (P := fun i => (∀ rx, i ≠ .onTransportComplete rx) →
    ∃ f, (∀ u, exec i u = .next (f u)) ∧ RunsAside f s) ?start ?issueCommand ?issueData ?poll
    ?wlanConnect ?getWlanStatus ?getBuffers ?getIpConfig ?sockAdd ?sockClose ?sockRecv ?sendTo ?onInterrupt
    ?onTransportComplete i hi hc
  case start =>
    exact fun _ => ⟨_, fun _ => rfl, (runsAside_raise .invalidState s).of_eq fun _ _ => if_pos hinit⟩
  case issueCommand =>
    exact fun opcode args _ => ⟨_, fun _ => rfl, (runsAside_raise .busy s).of_eq fun tx rx =>
      congrArg finishStatus (issueCommand_of_ne_idle (s := withBuffers tx rx s) hidle opcode args)⟩
  case issueData =>
    exact fun dopcode args data _ => ⟨_, fun _ => rfl, (runsAside_raise .busy s).of_eq fun tx rx =>
      congrArg finishStatus (issueData_of_ne_idle (s := withBuffers tx rx s) hidle dopcode args data)⟩
  case poll =>
    exact fun dt _ => ⟨_, fun _ => rfl, (runsAside_poll dt h).comp (runsAside_finish .nothing _)⟩
  case wlanConnect =>
    exact fun _ => ⟨_, fun _ => rfl, (runsAside_raise .invalid s).of_eq fun _ _ =>
      congrArg finishStatus (if_pos hidle)⟩
  case getWlanStatus | getBuffers | getIpConfig =>
    exact fun _ => ⟨_, fun _ => rfl, fun _ _ => rfl, rfl⟩
  case sockAdd =>
    exact fun family type protocol address _ => ⟨_, fun _ => rfl, runsAside_sockAdd family type protocol address s⟩
  case sockClose => exact fun slot _ => ⟨_, fun _ => rfl, runsAside_sockClose slot hidle⟩
  case sockRecv => exact fun slot length _ => ⟨_, fun _ => rfl, runsAside_sockRecv slot length hidle⟩
  case sendTo => exact fun slot data address _ => ⟨_, fun _ => rfl, runsAside_sendTo slot data address hidle⟩
  case onInterrupt => exact fun _ => ⟨_, fun _ => rfl, (runsAside_onInterrupt h).comp (runsAside_finish .nothing _)⟩
  case onTransportComplete => exact fun rx hne => absurd rfl (hne rx)

/-! ### What comes next does not depend on the buffers -/

/-- The event, with other contents of the buffers in the state it happens in. -/
def eventWithBuffers (tx rx : Memory) : Event → Event
  | .rest => .rest
  | .run i u => .run i (withBuffers tx rx u)
  | .masked u => .masked (withBuffers tx rx u)
  | .reject e => .reject e

theorem runDecoded_withBuffers (tx rx : Memory) (d : Decoded) (s : State) :
    runDecoded d (withBuffers tx rx s) = eventWithBuffers tx rx (runDecoded d s) := by cases d <;> rfl

theorem scheduled_withBuffers (tx rx : Memory) (s : State) :
    scheduled (withBuffers tx rx s) = eventWithBuffers tx rx (scheduled s) := by
  have hsched : (withBuffers tx rx s).env.schedule = s.env.schedule := rfl
  cases hs : s.env.schedule with
  | nil => simp only [scheduled, hsched, hs, eventWithBuffers]
  | cons entry rest =>
    cases entry with
    | edge =>
      by_cases hen : s.drv.intEn = true
      all_goals
        simp only [scheduled, hsched, hs, withBuffers_drv, hen, ↓reduceIte]
        rfl
    | line op irq =>
      rw [scheduled_line hs, scheduled_line (hsched.trans hs)]
      exact runDecoded_withBuffers tx rx _ (beginLine irq rest s)
    | wire site bytes =>
      rw [scheduled_wire hs, scheduled_wire (hsched.trans hs)]
      exact runDecoded_withBuffers tx rx _ (dropStimulus rest s)

theorem nextEvent_withBuffers (tx rx : Memory) (s : State) :
    nextEvent (withBuffers tx rx s) = eventWithBuffers tx rx (nextEvent s) := by
  have hdue : transferDue (withBuffers tx rx s) = transferDue s := rfl
  have henv : (withBuffers tx rx s).env = s.env := rfl
  unfold nextEvent
  rw [hdue, henv, withBuffers_drv]
  split_ifs
  · rfl
  · rfl
  · exact scheduled_withBuffers tx rx s

theorem settle_withBuffers {l : List Stimulus} {u t : State} (h : settle l (.next u) = .next t) (tx rx : Memory) :
    settle l (.next (withBuffers tx rx u)) = .next (withBuffers tx rx t) := by
  by_cases hheld : u.result = .held
  · rw [settle, if_pos hheld] at h
    cases h
    exact if_pos hheld
  · rw [settle, if_neg hheld] at h
    cases h
    exact if_neg hheld

/-- While a transaction is in flight a step ends it, and then leaves TX alone and counts the completion, or has no part
in the buffers. -/
theorem step_in_flight {s t : State} (hagents : agentsOnly s = true) (hsound : EngineSound s) {x : Xfer}
    (hx : s.drv.xfer = some x) (hstep : step s = .next t) :
    completionView t = (s.tx, s.drv.statSpiCompletions + 1) ∨
      ∀ tx rx, step (withBuffers tx rx s) = .next (withBuffers tx rx t) := by
  have hbusy : transferring s.drv.state = true := hsound.transferring (by simp [hx])
  cases hevent : nextEvent s with
  | rest | masked =>
    refine .inr fun tx rx => ?_
    rw [step, hevent] at hstep
    cases hstep
    rw [step, nextEvent_withBuffers, hevent]
    rfl
  | reject e =>
    rw [step, hevent] at hstep
    cases hstep
  | run i u =>
    obtain ⟨hi, -⟩ := nextEvent_byAgent hagents hevent
    obtain ⟨e, rfl⟩ := nextEvent_run hevent
    rw [step_of_run hevent] at hstep
    by_cases hc : ∃ bytes, i = .onTransportComplete bytes
    · obtain ⟨bytes, rfl⟩ := hc
      refine .inl ?_
      rw [execOnTransportComplete_of_xfer (s := { s with env := e }) hx] at hstep
      cases hend : completeTransfer x bytes { s with env := e } with
      | none => rw [hend] at hstep; cases hstep
      | some v =>
        rw [hend] at hstep
        have hview := completeTransfer_completionView hend
        obtain ⟨w, hw, ht⟩ := settle_next hstep
        cases hw
        rcases ht with rfl | ⟨-, rfl⟩ <;> exact hview
    · refine .inr fun tx rx => ?_
      obtain ⟨f, hf, haside⟩ := exec_runsAside (s := { s with env := e }) hbusy hi fun bytes hb => hc ⟨bytes, hb⟩
      have hrun : nextEvent (withBuffers tx rx s) = .run i (withBuffers tx rx { s with env := e }) := by
        rw [nextEvent_withBuffers, hevent]
        rfl
      rw [hf] at hstep
      rw [step_of_run hrun, hf, haside.buffers]
      exact settle_withBuffers hstep tx rx

end Sys2Proof.Machine

namespace Sys2Proof.BufferRules

open Sys2Proof.Machine Sys2Proof.Spec

/-- Settles O11: of the `Move`s only two write a buffer, and each write keeps the form. -/
theorem stepKeepsTheBuffersCanonical : Obligations.StepKeepsTheBuffersCanonical :=
  fun _ _ h hstep => step_keeps_of_moves (fun _ _ h => h) (fun _ _ hmoves => hmoves.wf) h hstep

/-- Settles O12: of the `Move`s only two write a buffer, and each write stays below `BUF_SIZE`. -/
theorem stepKeepsTheBuffersInRange : Obligations.StepKeepsTheBuffersInRange :=
  fun _ _ h hstep => step_keeps_of_moves (fun _ _ h => h) (fun _ _ hmoves => hmoves.within) h hstep

/-- Settles O15: in flight by `step_in_flight`, where a step that has no part in the buffers is compared with itself on
the buffers it has; otherwise every operation leaves RX. -/
theorem buffersHaveOneOwner : Obligations.BuffersHaveOneOwner := by
  intro s t hinv hstep
  obtain ⟨hagents, hsound⟩ := (engineInv_iff s).1 hinv
  refine ⟨fun hx => ?_, fun hx => ?_⟩
  · obtain ⟨x, hx⟩ := Option.ne_none_iff_exists'.1 hx
    rcases step_in_flight hagents hsound hx hstep with hended | haside
    · simp only [completionView, Prod.mk.injEq] at hended
      obtain ⟨htx, hcount⟩ := hended
      exact ⟨htx, .inr hcount, fun hsame => by omega⟩
    · have hself : t = withBuffers s.tx s.rx t := Host.Outcome.next.inj (hstep.symm.trans (haside s.tx s.rx))
      have htx : t.tx = s.tx := by rw [hself]; rfl
      have hrx : t.rx = s.rx := by rw [hself]; rfl
      have hleft (rx : Memory) : withBuffers s.tx rx t = { t with rx := rx } := by rw [← htx]; rfl
      exact ⟨htx, .inl hrx, fun _ rx => (haside s.tx rx).trans (congrArg _ (hleft rx))⟩
  · rcases step_cases hstep with ⟨e, rfl⟩ | ⟨i, e, u, f, hrun, hexec, rfl⟩
    · rfl
    · obtain ⟨hi, -⟩ := nextEvent_byAgent hagents hrun
      exact exec_rx_of_no_transfer (s := { s with env := e }) (t := u) (hsound.congr rfl) hx hi hexec

/-- Settles O20: each framer operation in its two outcomes. -/
theorem framesAreBuiltOrRefused : Obligations.FramesAreBuiltOrRefused := by
  refine ⟨fun opcode args s => ?command, fun dopcode args data s => ⟨execFrameData_refused, execFrameData_built⟩,
    fun s => ⟨_, framed_frameReadHeader s, rfl⟩⟩
  case command =>
    split
    · next hbad => exact execFrameCommand_refused hbad
    · next hfits => exact execFrameCommand_built hfits

/-- Settles O35: `u` is the state once the transport has done its part and the transaction is closed. -/
theorem completionsCloseTheTransaction : Obligations.CompletionsCloseTheTransaction := by
  intro rx s x i hx hi
  have hclosed := closeXfer_transportDone x rx s
  have hrow := execOnTransportComplete_row (rx := rx) hx hi
  generalize closeXfer (transportDone x rx s) = u at hclosed hrow
  refine ⟨u, by rw [hclosed], ?stored, hrow, fun hfits => ?next⟩
  case stored =>
    obtain ⟨kind, n⟩ := x
    rw [hclosed]
    cases kind with
    | tx => rfl
    | exchange | rx =>
      rw [supplied_eq_chipBytes]
      exact written_bufWriteBytes _ _ _ _
  case next =>
    rw [hrow]
    refine exec_completionRow_next hi fun hs => ?_
    have hcfg : u.cfg = s.cfg := by rw [hclosed]
    rw [← rxLength_eq_receivedLength, hcfg]
    exact hfits hs

end Sys2Proof.BufferRules

/-! Encoding: what decodes to what (R8, R80 to R83, R88 to R92): every encoding back to its operation, the received
packet to the row that DISPATCH is (R160), and what the format rows and the command rows do (30_encoding). -/

namespace Sys2Proof

/-! ### Payloads by their tag (R82, R83) -/

theorem argsFit_iff (args : List Byte) : argsFit args = true ↔ args.length ≤ 255 := decide_eq_true_iff

/-- The payload of a command or event after its tag (R82). -/
def commandRest (opcode : Opcode) (args : List Byte) : List Byte :=
  [lo8 opcode, hi8 opcode, BitVec.ofNat 8 args.length] ++ args

theorem commandPayload_eq_cons (tag : Byte) (opcode : Opcode) (args : List Byte) :
    commandPayload tag opcode args = tag :: commandRest opcode args := rfl

theorem parseEventPayload_commandRest (tag : Byte) (opcode : Opcode) {args : List Byte} (h : argsFit args = true) :
    parseEventPayload (tag :: commandRest opcode args) = some ⟨tag, opcode, args.length, args⟩ := by
  rw [← commandPayload_eq_cons, ← parseEventPayload_commandPayload tag opcode args [] ((argsFit_iff args).1 h),
    List.append_nil]

/-- The payload of a data frame after its tag (R83). -/
def dataRest (p : Params) (dopcode : Byte) (args data : List Byte) : List Byte := (dataPayload p dopcode args data).tail

theorem dataPayload_eq_cons (p : Params) (dopcode : Byte) (args data : List Byte) :
    dataPayload p dopcode args data = p.tagData :: dataRest p dopcode args data := rfl

theorem parseDataPayload_dataRest {p : Params} (dopcode : Byte) {args data : List Byte}
    (h : dataFit p args data = true) :
    parseDataPayload p (p.tagData :: dataRest p dopcode args data) =
      some ⟨p.tagData, dopcode, args.length, args, data.length, data⟩ := by
  simp only [dataFit, Bool.and_eq_true, argsFit_iff, decide_eq_true_eq] at h
  obtain ⟨hargs, hcount⟩ := h
  rw [← dataPayload_eq_cons, ← parseDataPayload_dataPayload p dopcode args data [] hargs hcount, List.append_nil]

/-- Every payload is malformed, a data packet, an event, or under another tag (R86, R92, R175). -/
theorem payload_cases (p : Params) (payload : List Byte) :
    malformed p payload = true ∨
    (∃ rest h, payload = p.tagData :: rest ∧ parseDataPayload p payload = some h) ∨
    (∃ rest h, payload = p.tagEvent :: rest ∧ parseEventPayload payload = some h) ∨
    ∃ tag rest, payload = tag :: rest ∧ tag ≠ p.tagEvent ∧ tag ≠ p.tagData := by
  cases payload with
  | nil => exact .inl rfl
  | cons tag rest =>
    by_cases hdata : tag = p.tagData
    · cases hparse : parseDataPayload p (tag :: rest) with
      | none => exact .inl (by rw [malformed, if_pos hdata, hparse]; rfl)
      | some h => exact .inr (.inl ⟨rest, h, by rw [hdata], rfl⟩)
    · by_cases hevent : tag = p.tagEvent
      · cases hparse : parseEventPayload (tag :: rest) with
        | none => exact .inl (by rw [malformed, if_neg hdata, if_pos hevent, hparse]; rfl)
        | some h => exact .inr (.inr (.inl ⟨rest, h, by rw [hevent], rfl⟩))
      · exact .inr (.inr (.inr ⟨tag, rest, rfl, hevent, hdata⟩))

/-! ### Outbound rows (R81, R84, R88) -/

/-- The header of an outbound frame says its length (R81). -/
theorem decodeTxHeader_write (p : Params) (length : BitVec 16) :
    decodeTxHeader p (transportHeaderBytes p.spiOpWrite length) = .instr (.xportHdrWrite length) := by
  simp [transportHeaderBytes, decodeTxHeader, Machine.be16_hi8_lo8]

/-- The read header is told from a write header by its type (R81, R101). -/
theorem decodeTxHeader_read {p : Params} (hp : p.Sound) :
    decodeTxHeader p (transportHeaderBytes p.spiOpRead 0) = .instr .xportHdrRead := by
  simp [transportHeaderBytes, decodeTxHeader, hp.readWrite, hi8, lo8]

/-- A received header is read back whole, wherever its length stands (R104, D5). -/
theorem decodeRxHeader_receivedHeaderBytes (p : Params) (type : Byte) (length : BitVec 16) (busy0 busy1 : Byte) :
    decodeRxHeader p (receivedHeaderBytes p type length busy0 busy1) =
      .instr (.xportHdrReceived type length busy0 busy1) := by
  cases h : p.rxLenOffset <;>
    simp [receivedHeaderBytes, decodeRxHeader, parseReceivedHeader, h, Machine.be16_hi8_lo8]

/-- By its format alone, a payload under the command tag is a command of any opcode (R82). -/
theorem decodeTxPayload_cmdHdr {p : Params} {rest : List Byte} {h : EventHeader}
    (hparse : parseEventPayload (p.tagCmd :: rest) = some h) :
    decodeTxPayload p false (p.tagCmd :: rest) = .instr (.cmdHdr h.opcode h.args) := by
  simp only [decodeTxPayload, if_pos, hparse]
  rfl

/-- By its opcode, it is the named command's row (R88). -/
theorem decodeTxPayload_cmdInstr {p : Params} {rest : List Byte} {h : EventHeader} {c : CmdName}
    (hparse : parseEventPayload (p.tagCmd :: rest) = some h) (hname : nameOf p h.opcode = some c) :
    decodeTxPayload p true (p.tagCmd :: rest) = .instr (cmdInstr c h.args) := by
  simp only [decodeTxPayload, if_pos, hparse, hname]

/-- Under the data tag an outbound payload is a data frame, its opcode looked up or not (R83, R88). -/
theorem decodeTxPayload_data {p : Params} (hp : p.Sound) (named : Bool) {rest : List Byte} {h : DataHeader}
    (hparse : parseDataPayload p (p.tagData :: rest) = some h) :
    decodeTxPayload p named (p.tagData :: rest) =
      if named && h.dopcode == p.dopcSendto then .instr (.dataSendto h.dargs h.data)
      else .instr (.dataHdrOut h.dopcode h.dargs h.data) := by
  simp only [decodeTxPayload, if_neg hp.commandData.symm, if_pos, hparse]

/-- A named command's row is what its opcode under the command tag decodes to (R88). -/
theorem decode_encodeCmd {p : Params} (hp : p.Sound) (pending : Option Opcode) (c : CmdName) {args : List Byte}
    (hargs : argsFit args = true) : decode p pending (encodeCmd p c args) = .instr (cmdInstr c args) :=
  decodeTxPayload_cmdInstr (parseEventPayload_commandRest p.tagCmd (p.opcodeOf c) hargs) (hp.nameOf_opcodeOf c)

/-! ### Received rows (R82, R83, R89) -/

theorem decodeRxFormat_data {p : Params} {rest : List Byte} {h : DataHeader}
    (hparse : parseDataPayload p (p.tagData :: rest) = some h) :
    decodeRxFormat p (p.tagData :: rest) = .instr (.dataHdrIn h.dopcode h.dargs h.data) := by
  simp only [decodeRxFormat, if_pos, hparse]

theorem decodeRxFormat_event {p : Params} (hp : p.Sound) {rest : List Byte} {h : EventHeader}
    (hparse : parseEventPayload (p.tagEvent :: rest) = some h) :
    decodeRxFormat p (p.tagEvent :: rest) = .instr (.eventHdr h.opcode h.args) := by
  simp only [decodeRxFormat, if_neg hp.eventData, if_pos, hparse]

theorem decodeRxPacket_malformed {p : Params} (pending : Option Opcode) {payload : List Byte}
    (h : malformed p payload = true) : decodeRxPacket p pending payload = .instr (.packetMalformed payload) := by
  cases payload with
  | nil => rfl
  | cons tag rest =>
    rw [malformed] at h
    by_cases hdata : tag = p.tagData
    · rw [if_pos hdata, Option.isNone_iff_eq_none] at h
      simp only [decodeRxPacket, if_pos hdata, h]
    · rw [if_neg hdata] at h
      by_cases hevent : tag = p.tagEvent
      · rw [if_pos hevent, Option.isNone_iff_eq_none] at h
        simp only [decodeRxPacket, if_neg hdata, if_pos hevent, h]
      · rw [if_neg hevent] at h
        cases h

theorem decodeRxPacket_data {p : Params} (pending : Option Opcode) {rest : List Byte} {h : DataHeader}
    (hparse : parseDataPayload p (p.tagData :: rest) = some h) :
    decodeRxPacket p pending (p.tagData :: rest) = .instr (.dataIn h.dopcode h.dargs h.data) := by
  simp only [decodeRxPacket, if_pos, hparse]

theorem decodeRxPacket_event {p : Params} (hp : p.Sound) (pending : Option Opcode) {rest : List Byte} {h : EventHeader}
    (hparse : parseEventPayload (p.tagEvent :: rest) = some h) :
    decodeRxPacket p pending (p.tagEvent :: rest) = .instr (decodeEvent p pending h.opcode h.args) := by
  simp only [decodeRxPacket, if_neg hp.eventData, if_pos, hparse]

theorem decodeRxPacket_unrecognised {p : Params} (pending : Option Opcode) {tag : Byte} (rest : List Byte)
    (hevent : tag ≠ p.tagEvent) (hdata : tag ≠ p.tagData) :
    decodeRxPacket p pending (tag :: rest) = .instr (.tagUnrecognised tag) := by
  simp only [decodeRxPacket, if_neg hdata, if_neg hevent]

/-- An event's encoding is the row its opcode and the pending command select (R87, R89). -/
theorem decode_encodeEvent {p : Params} (hp : p.Sound) (pending : Option Opcode) (opcode : Opcode) {args : List Byte}
    (hargs : argsFit args = true) :
    decode p pending (encodeEvent p opcode args) = .instr (decodeEvent p pending opcode args) :=
  decodeRxPacket_event hp pending (parseEventPayload_commandRest p.tagEvent opcode hargs)

/-- The reply to the pending command, when that is a named one (R88, R89). -/
theorem decode_encodeEvent_reply {p : Params} (hp : p.Sound) {pending : Option Opcode} (c : CmdName) {args : List Byte}
    (hargs : argsFit args = true) (hpending : (pending == some (p.opcodeOf c)) = true) :
    decode p pending (encodeEvent p (p.opcodeOf c) args) = .instr (replyInstr c args) := by
  rw [decode_encodeEvent hp pending _ hargs, decodeEvent, if_pos (hp.solicited c), if_pos (beq_iff_eq.1 hpending),
    hp.nameOf_opcodeOf]

/-- The reply to a pending command that has no name (R89). -/
theorem decodeEvent_replyOther {p : Params} {pending : Option Opcode} {opcode : Opcode} (args : List Byte)
    (hlow : opcode.ult unsolThreshold = true) (hpending : pending = some opcode) (hname : p.named opcode = false) :
    decodeEvent p pending opcode args = .replyOther opcode args := by
  rw [decodeEvent, if_pos hlow, if_pos hpending, nameOf_eq_none hname]

/-- A reply to a command that is not pending (R89). -/
theorem decodeEvent_replyUnexpected {p : Params} {pending : Option Opcode} {opcode : Opcode} (args : List Byte)
    (hlow : opcode.ult unsolThreshold = true) (hpending : pending ≠ some opcode) :
    decodeEvent p pending opcode args = .replyUnexpected opcode args := by
  rw [decodeEvent, if_pos hlow, if_neg hpending]

/-- At or above the threshold the pending command has no part (R87, R89). -/
theorem decodeEvent_unsolicited {p : Params} (pending : Option Opcode) {opcode : Opcode} (args : List Byte)
    (hhigh : opcode.ult unsolThreshold = false) :
    decodeEvent p pending opcode args =
      if opcode = p.evDhcp then .evDhcp args
      else if opcode = p.evCloseWait then .evCloseWait args
      else .evUnsolicitedOther opcode args := by
  rw [decodeEvent, if_neg (by simp [hhigh])]

/-! ### Trace lines (R91) -/

theorem decodeLine_of_lookup {name : String} {operands : List Operand} {f : List Operand → Option Instr} {i : Instr}
    (hrow : traceTable.lookup name = some f) (hreads : f operands = some i) :
    decodeLine ⟨name, operands⟩ = .instr i := by
  simp only [decodeLine, hrow, hreads]

theorem wordOperand_toNat (f : Word32 → Instr) (n : Word32) : wordOperand f [.num n.toNat] = some (f n) := by
  simp only [wordOperand, num32_toNat, Option.map_some]

theorem opcodeArgs_toNat (f : Opcode → List Byte → Instr) (opcode : Opcode) (args : List Byte) :
    opcodeArgs f [.num opcode.toNat, .bytes args] = some (f opcode args) := by
  simp only [opcodeArgs, num16_toNat, Option.map_some]

theorem dopcodeArgsData_toNat (f : Byte → List Byte → List Byte → Instr) (dopcode : Byte) (args data : List Byte) :
    dopcodeArgsData f [.num dopcode.toNat, .bytes args, .bytes data] = some (f dopcode args data) := by
  simp only [dopcodeArgsData, num8_toNat, Option.map_some]

/-- An operation written as a trace line is read back from it, whatever its operands; by the operands its line has. -/
theorem decodeLine_of_encode {p : Params} {i : Instr} {op : TraceOp} (h : encode p i = .line op) :
    decodeLine op = .instr i := by
  cases i
  -- no operand, or operands that a line holds as they are: byte lists, slots, lengths, a state, `cur`
  case frameReadHeader | parseTransport | parseEventHeader | parseDataHeader | start | onInterrupt |
      onInterruptCommandRequest | onInterruptDataRequest | onInterruptReadHeader | onInterruptUnhandled |
      onTransportComplete | onTransportCompleteSendingCommand | onTransportCompleteSendingData |
      onTransportCompleteReadingHeader | onTransportCompleteReadingPayload | finishReceive |
      onTransportCompleteNoTransaction | pollDispatch | pollDrainLatchedInterrupt | setState | wlanConnect |
      getWlanStatus | getBuffers | getIpConfig | dispatch | dispatchResume | dispatchData | dispatchEvent | smPollInit |
      smPollCreated | smPollReady | smPollCloseWait | smPollOtherStates | smPollSelect | sockReplySocket |
      sockReplyConnect | sockReplyClose | sockReplySelect | sockReplyRecv | sockData | sockClose | sockRecv | sendTo =>
    cases h
    exact decodeLine_of_lookup rfl rfl
  -- one 32-bit number
  case poll | pollStatusTimer | pollSocketManager | sockLookup | smPoll | sockCloseWait =>
    cases h
    exact decodeLine_of_lookup rfl (wordOperand_toNat _ _)
  -- an opcode and its arguments
  case frameCommand | issueCommand | dispatchUnsolicited | dispatchMatchingReply =>
    cases h
    exact decodeLine_of_lookup rfl (opcodeArgs_toNat _ _ _)
  -- a data opcode, its arguments and data
  case frameData | issueData =>
    cases h
    exact decodeLine_of_lookup rfl (dopcodeArgsData_toNat _ _ _ _)
  -- the rows whose operands no other row has
  case frameTransport | sockAdd | sockIssue | smPollFailed | sockReplyServer =>
    cases h
    refine decodeLine_of_lookup rfl ?_
    simp only [num8_toNat, num16_toNat, num32_toNat, Option.map_some, Option.bind_some]
  -- every other row has a wire form
  all_goals cases h

theorem decode_encode_of_line {p : Params} (pending : Option Opcode) {i : Instr} {op : TraceOp}
    (h : encode p i = .line op) : decode p pending (encode p i) = .instr i := by
  rw [h]
  exact decodeLine_of_encode h

/-! ### The row of a received event (R89) -/

theorem opcodeOf_of_nameOf {p : Params} {opcode : Opcode} {c : CmdName} (h : nameOf p opcode = some c) :
    p.opcodeOf c = opcode :=
  beq_iff_eq.1 (List.find?_some (p := fun c => p.opcodeOf c == opcode) h)

theorem eventRow_replyInstr (p : Params) (c : CmdName) (args : List Byte) :
    Spec.eventRow p (replyInstr c args) = some (p.opcodeOf c, args) := by cases c <;> rfl

theorem packetRow_replyInstr (c : CmdName) (args : List Byte) : Spec.packetRow (replyInstr c args) = true := by
  cases c <;> rfl

/-- Whichever row an event decodes to holds the event's opcode and arguments, and is a packet's row. -/
theorem eventRow_decodeEvent (p : Params) (pending : Option Opcode) (opcode : Opcode) (args : List Byte) :
    Spec.eventRow p (decodeEvent p pending opcode args) = some (opcode, args) ∧
      Spec.packetRow (decodeEvent p pending opcode args) = true := by
  by_cases hlow : opcode.ult unsolThreshold = true
  · by_cases hpending : pending = some opcode
    · cases hname : nameOf p opcode with
      | none =>
        simp only [decodeEvent, if_pos hlow, if_pos hpending, hname]
        exact ⟨rfl, rfl⟩
      | some c =>
        simp only [decodeEvent, if_pos hlow, if_pos hpending, hname]
        rw [eventRow_replyInstr, opcodeOf_of_nameOf hname]
        exact ⟨rfl, packetRow_replyInstr c args⟩
    · rw [decodeEvent_replyUnexpected args hlow hpending]
      exact ⟨rfl, rfl⟩
  · rw [decodeEvent_unsolicited pending args (Bool.eq_false_iff.2 hlow)]
    split
    · next hdhcp => exact ⟨by rw [hdhcp]; rfl, rfl⟩
    · split
      · next hcloseWait => exact ⟨by rw [hcloseWait]; rfl, rfl⟩
      · exact ⟨rfl, rfl⟩

end Sys2Proof

namespace Sys2Proof.Machine

open Sys2Proof.Spec

/-! ### The packet in RX (R160) -/

/-- Every row of a received event is the dispatcher's handling of its opcode and arguments (R163; log 18). -/
theorem exec_eventRow {i : Instr} {opcode : Opcode} {args : List Byte} {s : State}
    (h : eventRow s.cfg i = some (opcode, args)) :
    exec i s = finishDispatch (dispatchEventWith opcode args args.length s) := by
  cases i <;> cases h <;> rfl

/-- The first byte of a payload is the byte after the transport header. -/
theorem receivedPayload_eq_cons {s : State} {tag : Byte} {rest : List Byte} (hbuf : spiHdrLen < s.cfg.bufSize)
    (h : receivedPayload s = tag :: rest) : receivedLength s ≠ 0 ∧ memRead s.rx spiHdrLen = tag := by
  have hlen : receivedLength s = rest.length + 1 := by rw [← length_receivedPayload, h, List.length_cons]
  have hhead : (receivedPayload s)[0]? = some (rxByte s spiHdrLen) := by
    simp [receivedPayload, readRx, hlen]
  rw [h, rxByte, if_pos hbuf] at hhead
  exact ⟨by omega, (Option.some.inj hhead).symm⟩

theorem dispatch_malformed {s : State} (hbuf : spiHdrLen < s.cfg.bufSize)
    (h : malformed s.cfg (receivedPayload s) = true) : dispatch s = dispatchInvalid s := by
  cases hpayload : receivedPayload s with
  | nil =>
    have hlen : receivedLength s = 0 := by rw [← length_receivedPayload, hpayload, List.length_nil]
    rw [dispatch, if_pos hlen]
  | cons tag rest =>
    obtain ⟨hlen, htag⟩ := receivedPayload_eq_cons hbuf hpayload
    rw [dispatch, if_neg hlen, htag]
    rw [hpayload, malformed, ← hpayload] at h
    by_cases hdata : tag = s.cfg.tagData
    · rw [if_pos hdata, Option.isNone_iff_eq_none] at h
      rw [if_pos hdata, dispatchData, parseDataHeader, h]
    · rw [if_neg hdata] at h ⊢
      by_cases hevent : tag = s.cfg.tagEvent
      · rw [if_pos hevent, Option.isNone_iff_eq_none] at h
        rw [if_pos hevent, dispatchEvent, parseEventHeader, h]
      · rw [if_neg hevent]

theorem dispatch_data {s : State} (hbuf : spiHdrLen < s.cfg.bufSize) {rest : List Byte} {h : DataHeader}
    (hpayload : receivedPayload s = s.cfg.tagData :: rest)
    (hparse : parseDataPayload s.cfg (receivedPayload s) = some h) :
    dispatch s = dispatchDataWith h.dopcode h.dargs h.data h.dataLen s := by
  obtain ⟨hlen, htag⟩ := receivedPayload_eq_cons hbuf hpayload
  rw [dispatch, if_neg hlen, htag, if_pos rfl, dispatchData, parseDataHeader, hparse]

theorem dispatch_event {s : State} (hp : s.cfg.Sound) (hbuf : spiHdrLen < s.cfg.bufSize) {rest : List Byte}
    {h : EventHeader} (hpayload : receivedPayload s = s.cfg.tagEvent :: rest)
    (hparse : parseEventPayload (receivedPayload s) = some h) :
    dispatch s = dispatchEventWith h.opcode h.args h.argLen s := by
  obtain ⟨hlen, htag⟩ := receivedPayload_eq_cons hbuf hpayload
  rw [dispatch, if_neg hlen, htag, if_neg hp.eventData, if_pos rfl, dispatchEvent, parseEventHeader, hparse]

theorem dispatch_unrecognised {s : State} (hbuf : spiHdrLen < s.cfg.bufSize) {tag : Byte} {rest : List Byte}
    (hpayload : receivedPayload s = tag :: rest) (hevent : tag ≠ s.cfg.tagEvent) (hdata : tag ≠ s.cfg.tagData) :
    dispatch s = dispatchInvalid s := by
  obtain ⟨hlen, htag⟩ := receivedPayload_eq_cons hbuf hpayload
  rw [dispatch, if_neg hlen, htag, if_neg hdata, if_neg hevent]

/-- The packet in RX decodes to a packet's row, and that row is what DISPATCH does (R89, R160). -/
theorem decodeRxPacket_dispatch {s : State} (hp : s.cfg.Sound) (pending : Option Opcode) :
    ∃ i, decodeRxPacket s.cfg pending (receivedPayload s) = .instr i ∧ packetRow i = true ∧
      exec i s = finishDispatch (dispatch s) := by
  have hbuf : spiHdrLen < s.cfg.bufSize := Nat.lt_of_lt_of_le (by decide) hp.bufLow
  rcases payload_cases s.cfg (receivedPayload s) with
    hbad | ⟨rest, h, hpayload, hparse⟩ | ⟨rest, h, hpayload, hparse⟩ | ⟨tag, rest, hpayload, hevent, hdata⟩
  · rw [dispatch_malformed hbuf hbad]
    exact ⟨_, decodeRxPacket_malformed pending hbad, rfl, rfl⟩
  · have hlen : h.data.length = h.dataLen := by
      rcases parseDataPayload_cases s.cfg (receivedPayload s) with hnone | ⟨_, hsome, -, -, hlen⟩
      · cases hnone.symm.trans hparse
      · cases hsome.symm.trans hparse; exact hlen
    rw [dispatch_data hbuf hpayload hparse, ← hlen]
    rw [hpayload] at hparse ⊢
    exact ⟨_, decodeRxPacket_data pending hparse, rfl, rfl⟩
  · have hlen : h.args.length = h.argLen := by
      rcases parseEventPayload_cases (receivedPayload s) with hnone | ⟨_, hsome, -, -, hlen⟩
      · cases hnone.symm.trans hparse
      · cases hsome.symm.trans hparse; exact hlen
    obtain ⟨hrow, hpacket⟩ := eventRow_decodeEvent s.cfg pending h.opcode h.args
    rw [dispatch_event hp hbuf hpayload hparse, ← hlen]
    rw [hpayload] at hparse ⊢
    exact ⟨_, decodeRxPacket_event hp pending hparse, hpacket, exec_eventRow hrow⟩
  · rw [dispatch_unrecognised hbuf hpayload hevent hdata, hpayload]
    exact ⟨_, decodeRxPacket_unrecognised pending rest hevent hdata, rfl, rfl⟩

/-! ### Format rows (R81, R84, R104; log 17) -/

/-- A 16-bit value in the two bytes the statements write it with (R9, R61). -/
theorem hi8_eq_hi (v : BitVec 16) : hi8 v = hi v.toNat := hi8_eq v

theorem lo8_eq_lo (v : BitVec 16) : lo8 v = lo v.toNat := lo8_eq v

/-- The five bytes the chip sent are read from RX as it sent them, wherever the length stands (R104, D5). -/
theorem receivedHeader_writeRx {s : State} (hbuf : 5 ≤ s.cfg.bufSize) (type : Byte) (length : BitVec 16)
    (busy0 busy1 : Byte) :
    receivedHeader (writeRx 0 (receivedHeaderBytes s.cfg type length busy0 busy1) s) =
      (type, length, busy0, busy1) := by
  have hread : ∀ x < 5, memRead (writeRx 0 (receivedHeaderBytes s.cfg type length busy0 busy1) s).rx x =
      (receivedHeaderBytes s.cfg type length busy0 busy1).getD x unwrittenByte := by
    intro x hx
    have hlen : (receivedHeaderBytes s.cfg type length busy0 busy1).length = 5 := by
      unfold receivedHeaderBytes
      cases s.cfg.rxLenOffset <;> rfl
    exact (memRead_bufWriteBytes _ _ _ _ _).trans (if_pos (by omega))
  rw [receivedHeader, hread 0 (by decide), hread 1 (by decide), hread 2 (by decide), hread 3 (by decide),
    hread 4 (by decide), writeRx_cfg, parseReceivedHeader, receivedHeaderBytes]
  cases s.cfg.rxLenOffset <;> simp [be16_hi8_lo8]

/-- PAD of an odd frame, byte by byte: the padding byte behind it, the header's length one more (R84, R100). -/
theorem memRead_execPad {s : State} {n : Nat} (hlow : 5 ≤ n) (x : Nat) :
    memRead (writeTx 1 [hi8 (BitVec.ofNat 16 (n + 1 - 5)), lo8 (BitVec.ofNat 16 (n + 1 - 5))]
        (writeTx n [s.cfg.padByte] s)).tx x =
      if s.cfg.bufSize ≤ x then memRead s.tx x
      else if x = n then s.cfg.padByte
      else if x = 1 then hi (n - 4)
      else if x = 2 then lo (n - 4)
      else memRead s.tx x := by
  simp only [writeTx, memRead_bufWriteBytes, List.length_cons, List.length_nil]
  by_cases hin : s.cfg.bufSize ≤ x
  · rw [if_neg (by omega), if_neg (by omega), if_pos hin]
  · rw [if_neg hin]
    by_cases hpad : x = n
    · rw [if_neg (by omega), if_pos (by omega), if_pos hpad, hpad, Nat.sub_self]
      rfl
    · rw [if_neg hpad]
      by_cases h1 : x = 1
      · rw [if_pos (by omega), if_pos h1, h1, hi8_ofNat]
        rfl
      · rw [if_neg h1]
        by_cases h2 : x = 2
        · rw [if_pos (by omega), if_pos h2, h2, lo8_ofNat]
          rfl
        · rw [if_neg (by omega), if_neg (by omega), if_neg h2]

/-- What FRAME_COMMAND and FRAME_DATA answer is a next state, refused or not. -/
theorem finishFrame_next (s : State) (r : Option (State × Nat)) : ∃ t, finishFrame s r = .next t := by
  rcases r with _ | ⟨t, n⟩ <;> exact ⟨_, rfl⟩

/-! ### Command rows (R88, R121; log 16) -/

theorem finishStatus_eq (r : State × Status) : finishStatus r = { r.1 with result := returned r.2 } := by
  rcases r with ⟨t, _ | e⟩ <;> rfl

/-- A command row is ISSUE_COMMAND of its opcode. -/
theorem exec_commandRow {i : Instr} {opcode : Opcode} {args : List Byte} {s : State}
    (h : commandRow s.cfg i = some (opcode, args)) : exec i s = exec (.issueCommand opcode args) s := by
  cases i <;> cases h <;> rfl

end Sys2Proof.Machine

namespace Sys2Proof.EncodingRules

open Sys2Proof.Machine Sys2Proof.Spec

/-- Settles O1: wire forms by their place, tag and opcode, every other row by `decodeLine_of_encode`. -/
theorem decodeOfEncodeGivesTheInstruction : Obligations.DecodeOfEncodeGivesTheInstruction := by
  intro p pending i hwf hi hpending
  have hp := Params.sound hwf
  cases i
  -- transport headers and the padding byte
  case xportHdrWrite length => exact decodeTxHeader_write p length
  case xportHdrRead => exact decodeTxHeader_read hp
  case xportHdrReceived type length busy0 busy1 => exact decodeRxHeader_receivedHeaderBytes p type length busy0 busy1
  case pad => exact if_pos rfl
  -- payloads by their format alone
  case cmdHdr opcode args => exact decodeTxPayload_cmdHdr (parseEventPayload_commandRest p.tagCmd opcode hi)
  case eventHdr opcode args => exact decodeRxFormat_event hp (parseEventPayload_commandRest p.tagEvent opcode hi)
  case dataHdrOut dopcode args data => exact decodeTxPayload_data hp false (parseDataPayload_dataRest dopcode hi)
  case dataHdrIn dopcode args data => exact decodeRxFormat_data (parseDataPayload_dataRest dopcode hi)
  -- named commands
  case cmdStart | cmdStatusGet | cmdBufferSize | cmdWlanConnect | cmdSocket | cmdBind | cmdRecv | cmdAccept |
      cmdListen | cmdConnect | cmdSelect | cmdClose => exact decode_encodeCmd hp pending _ hi
  -- named replies
  case replyStart => exact decode_encodeEvent_reply hp .start hi hpending
  case replyStatusGet => exact decode_encodeEvent_reply hp .statusGet hi hpending
  case replyBufferSize => exact decode_encodeEvent_reply hp .bufferSize hi hpending
  case replyWlanConnect => exact decode_encodeEvent_reply hp .wlanConnect hi hpending
  case replySocket => exact decode_encodeEvent_reply hp .socket hi hpending
  case replyBind => exact decode_encodeEvent_reply hp .bind hi hpending
  case replyRecv => exact decode_encodeEvent_reply hp .recv hi hpending
  case replyAccept => exact decode_encodeEvent_reply hp .accept hi hpending
  case replyListen => exact decode_encodeEvent_reply hp .listen hi hpending
  case replyConnect => exact decode_encodeEvent_reply hp .connect hi hpending
  case replySelect => exact decode_encodeEvent_reply hp .select hi hpending
  case replyClose => exact decode_encodeEvent_reply hp .close hi hpending
  -- events, and the two replies without a name
  case evDhcp args =>
    refine (decode_encodeEvent hp pending p.evDhcp hi).trans (congrArg _ ?_)
    rw [decodeEvent_unsolicited pending args hp.dhcp, if_pos rfl]
  case evCloseWait args =>
    refine (decode_encodeEvent hp pending p.evCloseWait hi).trans (congrArg _ ?_)
    rw [decodeEvent_unsolicited pending args hp.closeWait, if_neg hp.closeWaitDhcp, if_pos rfl]
  case evUnsolicitedOther opcode args =>
    simp only [Instr.wf, Bool.and_eq_true, Bool.not_eq_true', decide_eq_true_eq] at hi
    obtain ⟨⟨⟨hargs, hhigh⟩, hdhcp⟩, hcloseWait⟩ := hi
    refine (decode_encodeEvent hp pending opcode hargs).trans (congrArg _ ?_)
    rw [decodeEvent_unsolicited pending args hhigh, if_neg hdhcp, if_neg hcloseWait]
  case replyOther opcode args =>
    simp only [Instr.wf, Bool.and_eq_true, Bool.not_eq_true'] at hi
    obtain ⟨⟨hargs, hlow⟩, hname⟩ := hi
    exact (decode_encodeEvent hp pending opcode hargs).trans
      (congrArg _ (decodeEvent_replyOther args hlow (beq_iff_eq.1 hpending) hname))
  case replyUnexpected opcode args =>
    simp only [Instr.wf, Bool.and_eq_true] at hi
    obtain ⟨hargs, hlow⟩ := hi
    exact (decode_encodeEvent hp pending opcode hargs).trans
      (congrArg _ (decodeEvent_replyUnexpected args hlow (bne_iff_ne.1 hpending)))
  -- the other packets
  case tagUnrecognised tag =>
    simp only [Instr.wf, Bool.and_eq_true, decide_eq_true_eq] at hi
    exact decodeRxPacket_unrecognised pending [] hi.1 hi.2
  case packetMalformed payload => exact decodeRxPacket_malformed pending hi
  case dataSendto args data =>
    exact (decodeTxPayload_data hp true (parseDataPayload_dataRest p.dopcSendto hi)).trans (if_pos (beq_self_eq_true _))
  case dataIn dopcode args data => exact decodeRxPacket_data pending (parseDataPayload_dataRest dopcode hi)
  -- operations without a wire form
  all_goals exact decode_encode_of_line pending rfl

/-- Settles O3: both sides split the packet in RX in the same four ways. -/
theorem dispatchIsTheDecodedPacket : Obligations.DispatchIsTheDecodedPacket := by
  intro s hwf
  obtain ⟨i, hdec, hpacket, hexec⟩ := decodeRxPacket_dispatch (Params.sound hwf) s.drv.pendingCommand
  rw [rxLength_eq_receivedLength]
  exact ⟨i, _, hdec, hpacket, hexec, rfl⟩

/-- Settles O22: the bytes the three header rows write, and for the others the framer's or the dispatcher's own
operation. -/
theorem formatRows : Obligations.FormatRows := by
  refine ⟨fun length s => ?write, fun type length busy0 busy1 s hbuf => ?received, fun s heven => ?even,
    fun s hlow hodd => ?odd, fun opcode args s => ?cmdHdr, fun dopcode args data s => ?dataHdrOut,
    fun s => ⟨_, rfl, rfl⟩, fun dopcode dargs data s => ⟨_, rfl, rfl⟩⟩
  case write =>
    refine ⟨setTransmitLength (5 + length.toNat) (writeTx 0 (transportHeaderBytes s.cfg.spiOpWrite length) s),
      ?_, ?_, rfl⟩
    · rw [← hi8_eq_hi, ← lo8_eq_lo]
      exact written_bufWriteBytes _ _ _ _
    · rw [held_eq_heldLength]
      rfl
  case received =>
    have hheader := receivedHeader_writeRx hbuf type length busy0 busy1
    refine ⟨writeRx 0 (receivedHeaderBytes s.cfg type length busy0 busy1) s, ?_, rfl, ?_⟩
    · rw [← hi8_eq_hi, ← lo8_eq_lo]
      exact written_bufWriteBytes _ _ _ _
    · show Host.Outcome.next _ = _
      simp only [receivedLength, hheader]
      rfl
  case even =>
    have hskip : ¬(5 ≤ s.drv.transmitLength.toNat ∧ s.drv.transmitLength.toNat % 2 = 1) := by omega
    exact if_neg hskip
  case odd =>
    refine ⟨_, if_pos ⟨hlow, hodd⟩, memRead_execPad hlow, ?_⟩
    rw [held_eq_heldLength]
    rfl
  case cmdHdr =>
    obtain ⟨t, ht⟩ := finishFrame_next s (frameCommand opcode args s)
    exact ⟨t, ht, ht⟩
  case dataHdrOut =>
    obtain ⟨t, ht⟩ := finishFrame_next s (frameData dopcode args data s)
    exact ⟨t, ht, ht⟩

/-- Settles O30: a command row is ISSUE_COMMAND of its opcode, which meets R121. -/
theorem commandRowsIssueTheirOpcode : Obligations.CommandRowsIssueTheirOpcode := by
  intro i opcode args s hrow hwf
  have hexec := exec_commandRow hrow
  refine ⟨_, _, issue_issueCommand opcode args hwf, ?_, hexec.symm⟩
  rw [hexec, ← finishStatus_eq]
  rfl

/-- Settles O2: each word evaluated. -/
theorem writtenOutWordsDecode : Obligations.WrittenOutWordsDecode :=
  ⟨by decide, by decide, by decide, by decide, by decide, by decide, by decide, by decide, by decide⟩

end Sys2Proof.EncodingRules

/-! The framer: the frames it builds, the fields it reads, and that reading undoes building (R100 to R108;
40_framer). -/

namespace Sys2Proof.Machine

open Sys2Proof.Spec

/-! ### What the parsers read, byte by byte (R104 to R106) -/

theorem readRx_succ (a n : Nat) (s : State) : readRx a (n + 1) s = rxByte s a :: readRx (a + 1) n s := by
  simp only [readRx, List.range_succ_eq_map, List.map_cons, List.map_map, Nat.add_zero]
  refine congrArg _ (List.map_congr_left fun j _ => ?_)
  rw [Function.comp_apply, Nat.succ_eq_add_one, Nat.add_comm j 1, Nat.add_assoc]

theorem readRx_add (a m n : Nat) (s : State) : readRx a (m + n) s = readRx a m s ++ readRx (a + m) n s := by
  simp only [readRx, List.range_add, List.map_append, List.map_map]
  refine congrArg _ (List.map_congr_left fun j _ => ?_)
  rw [Function.comp_apply, Nat.add_assoc]

theorem take_readRx {a m n : Nat} (h : m ≤ n) (s : State) : (readRx a n s).take m = readRx a m s := by
  obtain ⟨k, rfl⟩ := Nat.exists_eq_add_of_le h
  rw [readRx_add, List.take_left' (length_readRx a m s)]

theorem drop_readRx (a m n : Nat) (s : State) : (readRx a (m + n) s).drop m = readRx (a + m) n s := by
  rw [readRx_add, List.drop_left' (length_readRx a m s)]

theorem rxByte_of_lt {a : Nat} {s : State} (h : a < s.cfg.bufSize) : rxByte s a = memRead s.rx a := if_pos h

/-- The opcode as the statements write it, low byte first (R62). -/
theorem le16_eq_ofNat (b0 b1 : Byte) : le16 b0 b1 = BitVec.ofNat 16 (b0.toNat + 256 * b1.toNat) := by
  rw [← toNat_le16, BitVec.ofNat_toNat, BitVec.setWidth_eq]

/-- Fewer bytes than an event's header are no event (R105). -/
theorem parseEventPayload_of_short {payload : List Byte} (h : payload.length < 4) :
    parseEventPayload payload = none := by
  rcases parseEventPayload_cases payload with hnone | ⟨_, -, hlen, -⟩
  · exact hnone
  · omega

/-- Fewer bytes than a data frame's header are no data frame (R106). -/
theorem parseDataPayload_of_short {payload : List Byte} (p : Params) (h : payload.length < 5) :
    parseDataPayload p payload = none := by
  rcases parseDataPayload_cases p payload with hnone | ⟨_, -, hlen, -⟩
  · exact hnone
  · omega

/-- A received payload of at least four bytes, its event header taken apart (R82). -/
theorem receivedPayload_event {s : State} {r : Nat} (hbuf : 9 ≤ s.cfg.bufSize) (hlen : receivedLength s = r + 4) :
    receivedPayload s =
      memRead s.rx 5 :: memRead s.rx 6 :: memRead s.rx 7 :: memRead s.rx 8 :: readRx 9 r s := by
  rw [receivedPayload, hlen, readRx_succ, readRx_succ, readRx_succ, readRx_succ, rxByte_of_lt (by omega),
    rxByte_of_lt (by omega), rxByte_of_lt (by omega), rxByte_of_lt (by omega)]

/-- A received payload of at least five bytes, its data header taken apart (R83). -/
theorem receivedPayload_data {s : State} {r : Nat} (hbuf : 10 ≤ s.cfg.bufSize) (hlen : receivedLength s = r + 5) :
    receivedPayload s = memRead s.rx 5 :: memRead s.rx 6 :: memRead s.rx 7 :: memRead s.rx 8 ::
      memRead s.rx 9 :: readRx 10 r s := by
  have hheader := receivedPayload_event (r := r + 1) (by omega) hlen
  rwa [readRx_succ, rxByte_of_lt (by omega)] at hheader

/-- What PARSE_EVENT_HEADER reads (R105). -/
theorem parseEventHeader_eq {s : State} (hbuf : 264 ≤ s.cfg.bufSize) :
    parseEventHeader s =
      if rxLength s < 4 ∨ 4 + (memRead s.rx 8).toNat > rxLength s then none
      else some ⟨memRead s.rx 5, BitVec.ofNat 16 ((memRead s.rx 6).toNat + 256 * (memRead s.rx 7).toNat),
        (memRead s.rx 8).toNat, memReadBytes s.rx 9 (memRead s.rx 8).toNat⟩ := by
  rw [rxLength_eq_receivedLength, parseEventHeader]
  by_cases hshort : receivedLength s < 4
  · rw [if_pos (.inl hshort)]
    exact parseEventPayload_of_short (by rwa [length_receivedPayload])
  · obtain ⟨r, hr⟩ : ∃ r, receivedLength s = r + 4 := ⟨receivedLength s - 4, by omega⟩
    have hk := (memRead s.rx 8).isLt
    rw [receivedPayload_event (by omega) hr, parseEventPayload, length_readRx, hr]
    by_cases hargs : r < (memRead s.rx 8).toNat
    · rw [if_pos hargs, if_pos (.inr (by omega))]
    · rw [if_neg hargs, if_neg (by omega), le16_eq_ofNat, take_readRx (by omega), readRx_of_fits (by omega)]

/-- What PARSE_DATA_HEADER reads (R106, D8). -/
theorem parseDataHeader_eq {s : State} (hbuf : 10 ≤ s.cfg.bufSize) {k plen m : Nat}
    (hk : k = (memRead s.rx 7).toNat) (hplen : plen = (memRead s.rx 8).toNat + 256 * (memRead s.rx 9).toNat)
    (hm : m = if s.cfg.dataLenCountsArgs then plen - k else plen) :
    parseDataHeader s =
      if rxLength s < 5 ∨ (s.cfg.dataLenCountsArgs = true ∧ plen < k) ∨ 5 + k + m > rxLength s then none
      else some ⟨memRead s.rx 5, memRead s.rx 6, k, readRx 10 k s, m, readRx (10 + k) m s⟩ := by
  rw [rxLength_eq_receivedLength, parseDataHeader]
  by_cases hshort : receivedLength s < 5
  · rw [if_pos (.inl hshort)]
    exact parseDataPayload_of_short _ (by rwa [length_receivedPayload])
  · obtain ⟨r, hr⟩ : ∃ r, receivedLength s = r + 5 := ⟨receivedLength s - 5, by omega⟩
    rw [receivedPayload_data hbuf hr, parseDataPayload, toNat_le16, ← hk, ← hplen, ← hm, length_readRx, hr]
    by_cases hcount : s.cfg.dataLenCountsArgs = true ∧ plen < k
    · rw [if_pos (by simpa using hcount), if_pos (.inr (.inl hcount))]
    · rw [if_neg (by simpa using hcount)]
      by_cases hdata : r < k + m
      · exact (if_pos hdata).trans (if_pos (.inr (.inr (by omega)))).symm
      · obtain ⟨j, rfl⟩ : ∃ j, r = k + j := ⟨r - k, by omega⟩
        refine (if_neg hdata).trans ?_
        rw [if_neg (not_or.2 ⟨by omega, not_or.2 ⟨hcount, by omega⟩⟩), take_readRx (by omega), drop_readRx,
          take_readRx (by omega)]

/-! ### A frame in a buffer, and what it says of itself (R66, R107, R108) -/

/-- The transport header of `payload`, padding included, and the payload behind it stand at the start of `m` (R66). -/
def CarriesPayload (type : Byte) (payload : List Byte) (m : Memory) : Prop :=
  ∀ x < 5 + payload.length, memRead m x =
    (transportHeaderBytes type (BitVec.ofNat 16 payload.length) ++ payload).getD x unwrittenByte

/-- A copy of the frame carries what the frame carries. -/
theorem CarriesPayload.copy {type : Byte} {payload : List Byte} {m copy : Memory} (h : CarriesPayload type payload m)
    (hcopy : ∀ x < 5 + payload.length, memRead copy x = memRead m x) : CarriesPayload type payload copy :=
  fun x hx => (hcopy x hx).trans (h x hx)

/-- The header's two length bytes say the payload's length (R61, R81). -/
theorem CarriesPayload.be16_length {type : Byte} {payload : List Byte} {m : Memory}
    (h : CarriesPayload type payload m) (hlen : payload.length ≤ 65535) :
    256 * (memRead m 1).toNat + (memRead m 2).toNat = payload.length := by
  have hhi : memRead m 1 = hi8 (BitVec.ofNat 16 payload.length) := h 1 (by omega)
  have hlo : memRead m 2 = lo8 (BitVec.ofNat 16 payload.length) := h 2 (by omega)
  rw [hhi, hlo, ← toNat_be16, be16_hi8_lo8, BitVec.toNat_ofNat]
  omega

/-- The bytes behind the header are the payload. -/
theorem CarriesPayload.memReadBytes_payload {type : Byte} {payload : List Byte} {m : Memory}
    (h : CarriesPayload type payload m) : memReadBytes m 5 payload.length = payload := by
  refine List.ext_getElem (length_memReadBytes _ _ _) fun j _ hj => ?_
  have hbyte := h (5 + j) (by omega)
  rw [List.getD_append_right _ _ _ _ (by rw [length_transportHeaderBytes]; omega), length_transportHeaderBytes,
    Nat.add_sub_cancel_left, List.getD_eq_getElem _ _ hj] at hbyte
  simpa [memReadBytes] using hbyte

/-- Taking the length from the header, the payload is read whole (R104, R107). -/
theorem CarriesPayload.read {type : Byte} {payload : List Byte} {m : Memory} (h : CarriesPayload type payload m)
    (hlen : payload.length ≤ 65535) :
    memReadBytes m 5 (256 * (memRead m 1).toNat + (memRead m 2).toNat) = payload := by
  rw [h.be16_length hlen, h.memReadBytes_payload]

/-- `t` is what a framing operation that succeeds leaves: a frame of even length that carries `payload`, padding
included, and that length in `transmit_length` and as the result (R64, R108). -/
structure LeavesFrame (s : State) (payload : List Byte) (t : State) : Prop where
  tx : CarriesPayload s.cfg.spiOpWrite payload t.tx
  result : t.result = .length (5 + payload.length)
  transmitLength : t.drv.transmitLength.toNat = 5 + payload.length
  even : (5 + payload.length) % 2 = 0
  low : 10 ≤ 5 + payload.length
  fits : 5 + payload.length ≤ s.cfg.bufSize

/-- A frame in the statements' words, with its length returned, within the bounds of R108. -/
theorem LeavesFrame.of_framed {s t : State} {payload : List Byte} (hwf : s.cfg.wf = true)
    (h : Framed (transportHeaderBytes s.cfg.spiOpWrite (BitVec.ofNat 16 payload.length) ++ payload) s t)
    (heven : (5 + payload.length) % 2 = 0) (hlow : 10 ≤ 5 + payload.length)
    (hfits : 5 + payload.length ≤ s.cfg.bufSize) :
    LeavesFrame s payload { t with result := .length (5 + payload.length) } := by
  obtain ⟨hwritten, hrest⟩ := h
  have hlen : (transportHeaderBytes s.cfg.spiOpWrite (BitVec.ofNat 16 payload.length) ++ payload).length =
      5 + payload.length := by rw [List.length_append, length_transportHeaderBytes]
  have hhigh := (Params.sound hwf).bufHigh
  have htransmit : t.drv.transmitLength = BitVec.ofNat 16 (5 + payload.length) := by
    rw [← heldLength_of_le (by omega), ← held_eq_heldLength, ← hlen]
    exact congrArg (fun u : State => u.drv.transmitLength) hrest
  exact {
    tx := fun x hx => (hwritten x).trans (if_pos (by omega))
    result := rfl
    transmitLength := (congrArg BitVec.toNat htransmit).trans (toNat_ofNat_of_le_bufSize hwf hfits)
    even := heven
    low := hlow
    fits := hfits }

/-! ### The frames of FRAME_COMMAND and FRAME_DATA -/

/-- The padded payload of a command frame (R66, R84). -/
def paddedCommand (p : Params) (opcode : Opcode) (args : List Byte) : List Byte :=
  commandPayload p.tagCmd opcode args ++ padding p (4 + args.length)

/-- The padded payload of a data frame (R66, R84). -/
def paddedData (p : Params) (dopcode : Byte) (args data : List Byte) : List Byte :=
  dataPayload p dopcode args data ++ padding p (5 + args.length + data.length)

theorem length_paddedCommand (p : Params) (opcode : Opcode) (args : List Byte) :
    (paddedCommand p opcode args).length = paddedLength (4 + args.length) := by
  rw [paddedCommand, List.length_append, length_commandPayload, length_padding, paddedLength_eq]

theorem length_paddedData (p : Params) (dopcode : Byte) (args data : List Byte) :
    (paddedData p dopcode args data).length = paddedLength (5 + args.length + data.length) := by
  rw [paddedData, List.length_append, length_dataPayload, length_padding, paddedLength_eq]

theorem commandFrame_eq_header_append (p : Params) (opcode : Opcode) (args : List Byte) :
    commandFrame p opcode args =
      transportHeaderBytes p.spiOpWrite (BitVec.ofNat 16 (paddedCommand p opcode args).length) ++
        paddedCommand p opcode args := by
  rw [commandFrame_eq_commandBytes, commandBytes, length_paddedCommand, paddedCommand, List.append_assoc]

theorem dataFrame_eq_header_append (p : Params) (dopcode : Byte) (args data : List Byte) :
    dataFrame p dopcode args data =
      transportHeaderBytes p.spiOpWrite (BitVec.ofNat 16 (paddedData p dopcode args data).length) ++
        paddedData p dopcode args data := by
  rw [dataFrame_eq_dataBytes, dataBytes, length_paddedData, paddedData, List.append_assoc]

/-- FRAME_COMMAND of what fits leaves the command's frame (R102). -/
theorem execFrameCommand_leavesFrame {opcode : Opcode} {args : List Byte} {s : State} (hwf : s.cfg.wf = true)
    (h : ¬(args.length > 255 ∨ 5 + (4 + args.length) + 1 > s.cfg.bufSize)) :
    ∃ t, exec (.frameCommand opcode args) s = .next t ∧ LeavesFrame s (paddedCommand s.cfg opcode args) t := by
  obtain ⟨t, hframed, hexec⟩ := execFrameCommand_built (opcode := opcode) h
  rw [commandFrame_eq_header_append] at hframed hexec
  rw [List.length_append, length_transportHeaderBytes] at hexec
  have hbounds := length_commandBytes_bounds (opcode := opcode) (args := args) (p := s.cfg) (by omega)
  rw [length_commandBytes, ← length_paddedCommand s.cfg opcode] at hbounds
  obtain ⟨heven, hlow, hfits⟩ := hbounds
  exact ⟨_, hexec, .of_framed hwf hframed heven hlow hfits⟩

/-- FRAME_DATA of what fits leaves the data frame (R103). -/
theorem execFrameData_leavesFrame {dopcode : Byte} {args data : List Byte} {s : State} (hwf : s.cfg.wf = true)
    (h : ¬DataInvalid s.cfg args data) :
    ∃ t, exec (.frameData dopcode args data) s = .next t ∧ LeavesFrame s (paddedData s.cfg dopcode args data) t := by
  obtain ⟨t, hframed, hexec⟩ := execFrameData_built (dopcode := dopcode) h
  rw [dataFrame_eq_header_append] at hframed hexec
  rw [List.length_append, length_transportHeaderBytes] at hexec
  have hbounds := length_dataBytes_bounds (dopcode := dopcode)
    (Bool.eq_false_iff.2 fun hbad => h ((frameDataInvalid_iff _ _ _).1 hbad))
  rw [length_dataBytes, ← length_paddedData s.cfg dopcode] at hbounds
  obtain ⟨heven, hlow, hfits⟩ := hbounds
  exact ⟨_, hexec, .of_framed hwf hframed heven hlow hfits⟩

/-- FRAME_COMMAND and FRAME_DATA leave a frame whenever they return a length (R108). -/
theorem leavesFrame_of_result {i : Instr} {s t : State} {n : Nat}
    (hi : (∃ opcode args, i = .frameCommand opcode args) ∨ ∃ dopcode args data, i = .frameData dopcode args data)
    (hwf : s.cfg.wf = true) (hexec : exec i s = .next t) (hresult : t.result = .length n) :
    ∃ payload, LeavesFrame s payload t := by
  rcases hi with ⟨opcode, args, rfl⟩ | ⟨dopcode, args, data, rfl⟩
  · by_cases hbad : args.length > 255 ∨ 5 + (4 + args.length) + 1 > s.cfg.bufSize
    · cases (execFrameCommand_refused hbad).symm.trans hexec
      cases hresult
    · obtain ⟨u, hu, hframe⟩ := execFrameCommand_leavesFrame (opcode := opcode) hwf hbad
      cases hu.symm.trans hexec
      exact ⟨_, hframe⟩
  · by_cases hbad : DataInvalid s.cfg args data
    · cases (execFrameData_refused hbad).symm.trans hexec
      cases hresult
    · obtain ⟨u, hu, hframe⟩ := execFrameData_leavesFrame (dopcode := dopcode) hwf hbad
      cases hu.symm.trans hexec
      exact ⟨_, hframe⟩

/-- A copy of the frame a framing operation leaves gives back its payload, the length taken from the header (R107). -/
theorem LeavesFrame.read_copy {s t : State} {payload : List Byte} (h : LeavesFrame s payload t) (hwf : s.cfg.wf = true)
    {rx : Memory} (hcopy : ∀ x < 5 + payload.length, memRead rx x = memRead t.tx x) :
    memReadBytes rx 5 (256 * (memRead rx 1).toNat + (memRead rx 2).toNat) = payload := by
  have hfits := h.fits
  have hhigh := (Params.sound hwf).bufHigh
  exact (h.tx.copy hcopy).read (by omega)

end Sys2Proof.Machine

namespace Sys2Proof.FramerRules

open Sys2Proof.Machine Sys2Proof.Spec

/-- Settles O21: the bytes of `memRead_frameTransport`, all within TX. -/
theorem transportHeadersAreBuilt : Obligations.TransportHeadersAreBuilt := by
  intro type payloadLen s hfits hhigh n
  have hn : n = 5 + paddedLength payloadLen := by rw [paddedLength_eq, ← Nat.add_assoc]
  have hle : n ≤ s.cfg.bufSize := by omega
  refine ⟨_, rfl, fun x => ?bytes, ?registers⟩
  case bytes =>
    refine (memRead_frameTransport type payloadLen s x).trans ?_
    rw [← hn, show paddedLength payloadLen = n - 5 by omega]
    by_cases hin : s.cfg.bufSize ≤ x
    · rw [if_pos hin, if_neg (by omega), if_neg (by omega)]
    · rw [if_neg hin]
  case registers =>
    rw [hn, ← heldLength_of_le (by omega)]
    rfl

/-- Settles O23: the header's bytes taken apart, then the arguments and the data as parts of what follows. -/
theorem parsersReadTheFields : Obligations.ParsersReadTheFields := by
  refine ⟨fun s => ?transport, fun s hwf => ?event, fun s hbuf => ⟨?data, fun hend => ?inside⟩⟩
  case transport =>
    rw [rxLength_eq_receivedLength, ← receivedHeader_type]
    rfl
  case event =>
    have hlow := (Params.sound hwf).bufLow
    dsimp only
    rw [← parseEventHeader_eq (by omega)]
    rfl
  case data =>
    rw [← parseDataHeader_eq hbuf rfl rfl rfl]
    rfl
  case inside => exact ⟨readRx_of_fits (by omega), readRx_of_fits hend⟩

/-- Settles O24: the payload comes back whole with its padding, and the parsers pass over what follows the fields. -/
theorem framingRoundTrip : Obligations.FramingRoundTrip := by
  refine ⟨fun opcode args s hwf hargs => ?command, fun dopcode args data s hwf hvalid => ?data⟩
  case command =>
    have hlow := (Params.sound hwf).bufLow
    obtain ⟨t, hexec, hframe⟩ := execFrameCommand_leavesFrame (opcode := opcode) (args := args) hwf (by omega)
    refine ⟨t, _, hexec, hframe.result, fun rx hcopy => ?_⟩
    rw [hframe.read_copy hwf hcopy]
    exact parseEventPayload_commandPayload _ _ _ _ hargs
  case data =>
    obtain ⟨t, hexec, hframe⟩ := execFrameData_leavesFrame (dopcode := dopcode) hwf hvalid
    refine ⟨t, _, hexec, hframe.result, fun rx hcopy => ?_⟩
    rw [hframe.read_copy hwf hcopy]
    simp only [DataInvalid, not_or, Nat.not_lt] at hvalid
    obtain ⟨hargs, hplen, -⟩ := hvalid
    exact parseDataPayload_dataPayload _ _ _ _ _ hargs hplen

/-- Settles O25: `LeavesFrame`, its length bytes read back. -/
theorem framesHaveEvenLength : Obligations.FramesHaveEvenLength := by
  intro i s t n hi hwf hexec hresult
  obtain ⟨payload, hframe⟩ := leavesFrame_of_result hi hwf hexec hresult
  have hhigh := (Params.sound hwf).bufHigh
  obtain rfl : n = 5 + payload.length := OpResult.length.inj (hresult.symm.trans hframe.result)
  have hfits := hframe.fits
  exact ⟨hframe.even, hframe.transmitLength.symm, by rw [hframe.tx.be16_length (by omega)], hframe.low, hfits⟩

end Sys2Proof.FramerRules

/-! The sequencer: every report of `set_state` and the table of transitions (R141, R144), the start sequence and the
issue operations (R120 to R122, R142), the two handlers (R123 to R134), the polling loop (R135 to R139), and what a step
does without an entry of the schedule (41_sequencer). -/

namespace Sys2Proof.Machine

open Sys2Proof.Spec

/-! ### The transitions an operation reports lead from its first state to its last (R141) -/

theorem traceState_append (d : DrvState) (l m : List Effect) :
    traceState d (l ++ m) = (traceState d l).bind fun e => traceState e m := by
  induction l generalizing d with
  | nil => rfl
  | cons e rest ih =>
    cases e with
    | obsTransition old new =>
      rw [List.cons_append, traceState, traceState]
      split
      · exact ih new
      · rfl
    | _ => exact ih d

/-- An effect that reports no transition leads nowhere. -/
theorem traceState_singleton {e : Effect} (h : ∀ a b, e ≠ .obsTransition a b) (d : DrvState) :
    traceState d [e] = some d := by
  cases e with
  | obsTransition a b => exact absurd rfl (h a b)
  | _ => rfl

/-- From `s` to `t` the effect history has only grown, and the transitions in what it grew by lead from the state of `s`
to that of `t`. -/
def Traced (s t : State) : Prop :=
  ∃ new, t.effects = s.effects ++ new ∧ traceState s.drv.state new = some t.drv.state

theorem Traced.of_view {s t : State} (heffects : t.effects = s.effects) (hstate : t.drv.state = s.drv.state) :
    Traced s t :=
  ⟨[], by rw [heffects, List.append_nil], by rw [hstate]; rfl⟩

theorem Traced.trans {s t u : State} (h : Traced s t) (g : Traced t u) : Traced s u := by
  obtain ⟨new, heffects, htrace⟩ := h
  obtain ⟨more, heffects', htrace'⟩ := g
  refine ⟨new ++ more, by rw [heffects', heffects, List.append_assoc], ?_⟩
  rw [traceState_append, htrace]
  exact htrace'

theorem Move.traced {s t : State} (m : Move s t) : Traced s t := by
  cases m with
  | effect e h => exact ⟨[e], rfl, traceState_singleton h _⟩
  | drv d h => exact .of_view rfl h.state
  | state d => exact ⟨[.obsTransition s.drv.state d], rfl, if_pos rfl⟩
  | _ => exact .of_view rfl rfl

theorem Moves.traced {s t : State} (h : Moves s t) : Traced s t := by
  induction h with
  | refl => exact .of_view rfl rfl
  | tail _ m ih => exact ih.trans m.traced

/-! ### Every transition reported is one of the table (R144) -/

/-- From `s` to `t` the effect history has only grown, and each transition it grew by is a pair of the table. -/
def ReportsAllowed (s t : State) : Prop :=
  ∃ new, t.effects = s.effects ++ new ∧ ∀ a b, Effect.obsTransition a b ∈ new → transitionAllowed a b = true

theorem ReportsAllowed.of_effects_eq {s t : State} (h : t.effects = s.effects) : ReportsAllowed s t :=
  ⟨[], by rw [h, List.append_nil], by simp⟩

theorem ReportsAllowed.refl (s : State) : ReportsAllowed s s := .of_effects_eq rfl

theorem ReportsAllowed.trans {s t u : State} (h : ReportsAllowed s t) (g : ReportsAllowed t u) :
    ReportsAllowed s u := by
  obtain ⟨new, heffects, hallowed⟩ := h
  obtain ⟨more, heffects', hallowed'⟩ := g
  refine ⟨new ++ more, by rw [heffects', heffects, List.append_assoc], fun a b hmem => ?_⟩
  rcases List.mem_append.1 hmem with hmem | hmem
  · exact hallowed a b hmem
  · exact hallowed' a b hmem

/-- The history grew by effects of which one, the transition from `a` to `b`, reports a transition. -/
theorem ReportsAllowed.of_transition {s t : State} {a b : DrvState} (before after : List Effect)
    (heffects : t.effects = s.effects ++ (before ++ .obsTransition a b :: after))
    (hallowed : transitionAllowed a b = true)
    (hrest : ∀ e ∈ before ++ after, ∀ c d, e ≠ .obsTransition c d) : ReportsAllowed s t := by
  refine ⟨_, heffects, fun c d hmem => ?_⟩
  rcases List.mem_append.1 hmem with hmem | hmem
  · exact absurd rfl (hrest _ (List.mem_append_left _ hmem) c d)
  · rcases List.mem_cons.1 hmem with heq | hmem
    · cases heq
      exact hallowed
    · exact absurd rfl (hrest _ (List.mem_append_right _ hmem) c d)

/-- The history grew by effects that report no transition. -/
theorem ReportsAllowed.of_no_transition {s t : State} (new : List Effect) (heffects : t.effects = s.effects ++ new)
    (hnew : ∀ e ∈ new, ∀ c d, e ≠ .obsTransition c d) : ReportsAllowed s t :=
  ⟨new, heffects, fun a b hmem => absurd rfl (hnew _ hmem a b)⟩

theorem ReportsAllowed.setState {s : State} {d : DrvState} (h : transitionAllowed s.drv.state d = true) :
    ReportsAllowed s (setState d s) :=
  .of_transition [] [] rfl h (by simp)

theorem ReportsAllowed.finishStatus {s : State} {r : State × Status} (h : ReportsAllowed s r.1) :
    ReportsAllowed s (finishStatus r) := by
  rw [finishStatus_eq]
  exact h

/-! #### The sequencer's operations -/

theorem reportsAllowed_issueDeferred (s : State) : ReportsAllowed s (issueDeferred s) :=
  .of_no_transition [.intEn false, .irqLevel .asserted, .intEn true] rfl (by simp)

theorem reportsAllowed_issueCommand (opcode : Opcode) (args : List Byte) (s : State) :
    ReportsAllowed s (issueCommand opcode args s).1 := by
  have hc := issueCommand_cases opcode args s
  generalize issueCommand opcode args s = r at hc
  cases hc with
  | busy | tooLong => exact .refl s
  | deferred => exact reportsAllowed_issueDeferred s
  | unframed =>
    exact .of_no_transition [.intEn false, .irqLevel s.env.level] (List.append_assoc ..) (by simp)
  | issued =>
    exact .of_transition [.intEn false, .irqLevel .idle, .obsCommand opcode] [.cs true, .intEn true] rfl rfl (by simp)

theorem reportsAllowed_issueData (dopcode : Byte) (args data : List Byte) (s : State) :
    ReportsAllowed s (issueData dopcode args data s).1 := by
  have hc := issueData_cases dopcode args data s
  generalize issueData dopcode args data s = r at hc
  cases hc with
  | busy | invalid => exact .refl s
  | deferred => exact reportsAllowed_issueDeferred s
  | issued =>
    exact .of_transition [.intEn false, .irqLevel .idle] [.cs true, .intEn true] rfl rfl (by simp)

theorem reportsAllowed_wlanConnectWith (args : List Byte) (s : State) :
    ReportsAllowed s (wlanConnectWith args s).1 := by
  unfold wlanConnectWith
  split
  · exact .refl s
  · exact reportsAllowed_issueCommand _ _ _

theorem reportsAllowed_startWith {args : List Byte} {s : State} (hwf : s.cfg.wf = true) (ha : args.length ≤ 255) :
    ReportsAllowed s (startWith args s) := by
  rcases startWith_cases args s hwf ha with heq | heq | ⟨-, tx, sent, heq⟩ <;> rw [heq]
  · exact .of_effects_eq rfl
  · exact .of_effects_eq rfl
  · exact .of_transition [.intEn false, .chipEn true, .irqLevel .asserted, .cs true, .delay s.cfg.startDelayUs,
      .obsCommand s.cfg.opcStart, .xferBlocking .tx (commandBytes s.cfg s.cfg.opcStart args).length, .cs false]
      [.intEn true] rfl rfl (by simp)

/-- Every state in which an interrupt or the drain starts a read leads to `ReadingHeader` in the table. -/
theorem transitionAllowed_of_quiet {d : DrvState} (h : quiet d = true) : transitionAllowed d .readingHeader = true := by
  revert h
  cases d <;> decide

theorem reportsAllowed_readHeaderSequence {s : State} (h : quiet s.drv.state = true) :
    ReportsAllowed s (readHeaderSequence s) := by
  rw [readHeaderSequence_eq]
  exact .of_transition [.intEn false, .cs true] [.xfer .exchange 5] rfl (transitionAllowed_of_quiet h) (by simp)

/-- The frame that stands in TX goes out (R124, R125). -/
theorem reportsAllowed_sendFrame {s : State} {d : DrvState} (n : Nat) (h : transitionAllowed s.drv.state d = true) :
    ReportsAllowed s (requestXfer .tx n (setState d (driveIntEn false s))) :=
  .of_transition [.intEn false] [.xfer .tx n] (by simp) h (by simp)

theorem reportsAllowed_onInterrupt (s : State) : ReportsAllowed s (onInterrupt s) := by
  have hcount : ReportsAllowed s (countInterrupt s) := .of_effects_eq rfl
  refine hcount.trans ?_
  unfold onInterrupt
  dsimp only
  generalize countInterrupt s = u
  cases hs : u.drv.state with
  | commandRequest | dataRequest => exact reportsAllowed_sendFrame _ (by rw [hs]; rfl)
  | startSequence | awaitingReply | idle | receivingData => exact reportsAllowed_readHeaderSequence (by rw [hs]; rfl)
  | init | sendingCommand | sendingData | readingHeader | readingPayload | eventReady => exact .of_effects_eq rfl

/-- The chip is released and the sequencer goes on to `d` (R129, R130, R133). -/
theorem reportsAllowed_release {s : State} {d : DrvState} (h : transitionAllowed s.drv.state d = true) :
    ReportsAllowed s (driveIntEn true (setState d (driveCs false s))) :=
  .of_transition [.cs false] [.intEn true] (by simp) h (by simp)

theorem reportsAllowed_completeReadingHeader {s t : State} (hs : s.drv.state = .readingHeader)
    (h : completeReadingHeader s = some t) : ReportsAllowed s t := by
  unfold completeReadingHeader at h
  dsimp only at h
  split at h
  · cases h
    exact reportsAllowed_release (s := countBytesRx spiHdrLen s) (by rw [countBytesRx_drv, hs]; rfl)
  · split at h <;> cases h
    exact .of_transition [] [.xfer .rx _] (List.append_assoc ..) (by rw [countBytesRx_drv, hs]; rfl) (by simp)

theorem reportsAllowed_completeTransfer {s t : State} {x : Xfer} {rx : List Byte}
    (h : completeTransfer x rx s = some t) : ReportsAllowed s t := by
  have hclosed : ReportsAllowed s (closeXfer (transportDone x rx s)) :=
    .of_effects_eq (by rw [closeXfer_transportDone])
  refine hclosed.trans ?_
  unfold completeTransfer at h
  dsimp only at h
  generalize closeXfer (transportDone x rx s) = u at h
  cases hs : u.drv.state <;> simp only [hs] at h
  case sendingCommand | sendingData =>
    cases h
    exact reportsAllowed_release (s := countBytesTx x.n u) (by rw [countBytesTx_drv, hs]; rfl)
  case readingHeader => exact reportsAllowed_completeReadingHeader hs h
  case readingPayload =>
    cases h
    exact reportsAllowed_release (s := countBytesRx x.n u) (by rw [countBytesRx_drv, hs]; rfl)
  case init | startSequence | idle | commandRequest | awaitingReply | dataRequest | receivingData | eventReady =>
    cases h
    exact .refl _

/-! #### The socket table's operations -/

theorem SlotChange.effects {s t : State} (h : SlotChange s t) : t.effects = s.effects := by cases h <;> rfl

theorem SlotTurn.reportsAllowed {s t : State} (h : SlotTurn s t) : ReportsAllowed s t := by
  cases h with
  | change hc => exact .of_effects_eq hc.effects
  | issue opcode args f =>
    have hissue := reportsAllowed_issueCommand opcode args s
    rw [issueThen_eq]
    cases (issueCommand opcode args s).2 <;> exact hissue

theorem reportsAllowed_smSelect (s : State) : ReportsAllowed s (smSelect s) := by
  have hissue := reportsAllowed_issueCommand s.cfg.opcSelect (argsSelect s.cfg.codec (selectMask s.sm.table)) s
  rw [smSelect_eq]
  split
  · dsimp only
    split <;> exact hissue
  · exact .refl s

theorem reportsAllowed_smPoll (dt : Word32) (s : State) : ReportsAllowed s (smPoll dt s) :=
  smPoll_keeps (fun _ _ hturn h => h.trans hturn.reportsAllowed) (fun u h => h.trans (reportsAllowed_smSelect u)) dt
    (.refl s)

theorem reportsAllowed_sendTo (i : Nat) (data address : List Byte) (s : State) :
    ReportsAllowed s (sendTo i data address s) := by
  rcases sendTo_cases i data address s with ⟨e, heq⟩ | ⟨args, heq⟩ <;> rw [heq]
  · exact .of_effects_eq rfl
  · exact (reportsAllowed_issueData _ args data s).finishStatus

theorem sockAdd_effects (family type protocol : Word32) (address : List Byte) (s : State) :
    (sockAdd family type protocol address s).effects = s.effects := by
  unfold sockAdd
  split <;> rfl

/-! #### The dispatcher, with a packet waiting -/

/-- All that the observer sees of the sequencer: its state and the history of effects. -/
def observerView (s : State) : DrvState × List Effect := (s.drv.state, s.effects)

theorem ReportsAllowed.of_observerView {s t : State} (h : observerView t = observerView s) : ReportsAllowed s t :=
  .of_effects_eq (congrArg Prod.snd h)

theorem state_of_observerView {s t : State} (h : observerView t = observerView s) : t.drv.state = s.drv.state :=
  congrArg Prod.fst h

theorem SlotChange.observerView {s t : State} (h : SlotChange s t) : observerView t = observerView s := by
  cases h <;> rfl

theorem replyTo_observerView (cur : Option Nat) (expected : SockState) (f : Socket → Socket) (s : State) :
    observerView (replyTo cur expected f s) = observerView s := by
  unfold replyTo
  split
  · rfl
  · split
    · rfl
    · split <;> rfl

theorem replyServer_observerView (opcode : Opcode) (cur : Option Nat) (s : State) :
    observerView (replyServer opcode cur s) = observerView s := by
  have hif (c : Prop) [Decidable c] (expected : SockState) (f : Socket → Socket) (u : State) :
      observerView (if c then replyTo cur expected f u else u) = observerView u := by
    split
    · exact replyTo_observerView _ _ _ u
    · rfl
  exact ((hif _ _ _ _).trans (hif _ _ _ _)).trans (hif _ _ _ s)

/-- Of the replies to the socket commands only the receive's is seen by the observer (R206). -/
theorem sockReply_observed (opcode : Opcode) (args : List Byte) (cur : Option Nat) (s : State) :
    observerView (sockReply opcode args cur s) = observerView s ∨
      sockReply opcode args cur s = setState .receivingData s := by
  have hselect : observerView (replySelect args s) = observerView s := by
    unfold replySelect
    dsimp only
    split <;> rfl
  unfold sockReply
  split
  · exact .inl (slotChange_replyCreate args cur s).observerView
  · split
    · exact .inl (slotChange_replyConnect args cur s).observerView
    · split
      · exact .inl (slotChange_replyClose cur s).observerView
      · split
        · exact .inl hselect
        · split
          · exact .inr rfl
          · exact .inl (replyServer_observerView opcode cur s)

theorem onBufferSize_observerView (args : List Byte) (s : State) :
    observerView (onBufferSize args s) = observerView s := by
  unfold onBufferSize
  split <;> rfl

theorem onDhcp_observerView (args : List Byte) (s : State) : observerView (onDhcp args s) = observerView s := by
  unfold onDhcp
  split <;> rfl

theorem reportsAllowed_onStatusGet (args : List Byte) (s : State) : ReportsAllowed s (onStatusGet args s) := by
  unfold onStatusGet
  split
  · exact .refl s
  · next v _ =>
    have hrecord : ReportsAllowed s (recordWlanStatus v s) := .of_effects_eq rfl
    dsimp only
    split
    · exact hrecord.trans (reportsAllowed_issueCommand _ _ _)
    · exact hrecord

theorem reportsAllowed_resume {s : State} (h : s.drv.state = .eventReady) : ReportsAllowed s (resume s) := by
  unfold resume
  split <;> exact .setState (by rw [h]; rfl)

theorem reportsAllowed_clearPending {s : State} (h : s.drv.state = .eventReady) :
    ReportsAllowed s (clearPending s) :=
  .of_transition [] [] rfl (by rw [h]; rfl) (by simp)

theorem reportsAllowed_dispatchMatchingReply {s : State} (h : s.drv.state = .eventReady) (opcode : Opcode)
    (args : List Byte) : ReportsAllowed s (dispatchMatchingReply opcode args s).1 := by
  unfold dispatchMatchingReply
  refine (reportsAllowed_clearPending h).trans ?_
  dsimp only
  split
  · exact .of_observerView (onBufferSize_observerView args _)
  · split
    · exact reportsAllowed_onStatusGet args _
    · split
      · rcases sockReply_observed opcode args (s.sm.current.map Fin.val) (clearPending s) with hview | heq
        · exact .of_observerView hview
        · dsimp only
          rw [heq]
          exact .setState rfl
      · split <;> exact .refl _

/-- What happened before the dispatch resumes was seen by the observer at most as a report of no transition. -/
theorem reportsAllowed_resume_after {s t : State} (hs : s.drv.state = .eventReady) (h : ReportsAllowed s t)
    (hstate : t.drv.state = s.drv.state) : ReportsAllowed s (resume t) :=
  h.trans (reportsAllowed_resume (hstate.trans hs))

theorem reportsAllowed_dispatchUnsolicited {s : State} (h : s.drv.state = .eventReady) (opcode : Opcode)
    (args : List Byte) : ReportsAllowed s (dispatchUnsolicited opcode args s).1 := by
  have hdhcp := onDhcp_observerView args (countUnsolicited s)
  have hclose := (slotChange_onCloseWait args (countUnsolicited s)).observerView
  unfold dispatchUnsolicited
  dsimp only
  split
  · exact reportsAllowed_resume_after h (.of_observerView hdhcp) (state_of_observerView hdhcp)
  · split
    · exact reportsAllowed_resume_after h (.of_observerView hclose) (state_of_observerView hclose)
    · exact reportsAllowed_resume_after h (.of_effects_eq rfl) rfl

theorem reportsAllowed_dispatchEventWith {s : State} (h : s.drv.state = .eventReady) (opcode : Opcode)
    (args : List Byte) (n : Nat) : ReportsAllowed s (dispatchEventWith opcode args n s).1 := by
  have hreport : ReportsAllowed s (reportEvent opcode args n s) :=
    .of_no_transition [.obsEvent opcode args n] rfl (by simp)
  unfold dispatchEventWith
  refine hreport.trans ?_
  dsimp only
  split
  · split
    · exact reportsAllowed_dispatchMatchingReply (s := reportEvent opcode args n s) h opcode args
    · exact reportsAllowed_resume (s := reportEvent opcode args n s) h
  · exact reportsAllowed_dispatchUnsolicited (s := reportEvent opcode args n s) h opcode args

theorem reportsAllowed_dispatchDataWith {s : State} (h : s.drv.state = .eventReady) (dopcode : Byte)
    (dargs data : List Byte) (m : Nat) : ReportsAllowed s (dispatchDataWith dopcode dargs data m s).1 := by
  have hview := (slotChange_sockData dargs m s).observerView
  have hreport : ReportsAllowed (sockData dargs m s) (emit (.obsData dopcode dargs data) (sockData dargs m s)) :=
    .of_no_transition [.obsData dopcode dargs data] rfl (by simp)
  exact reportsAllowed_resume_after h ((ReportsAllowed.of_observerView hview).trans hreport)
    (state_of_observerView (s := s) (t := sockData dargs m s) hview)

theorem reportsAllowed_dispatch {s : State} (h : s.drv.state = .eventReady) : ReportsAllowed s (dispatch s).1 := by
  have hinvalid : ReportsAllowed s (dispatchInvalid s).1 := reportsAllowed_resume h
  unfold dispatch dispatchData dispatchEvent
  split
  · exact hinvalid
  · split
    · split
      · exact hinvalid
      · exact reportsAllowed_dispatchDataWith h _ _ _ _
    · split
      · split
        · exact hinvalid
        · exact reportsAllowed_dispatchEventWith h _ _ _
      · exact hinvalid

/-! #### The polling loop -/

theorem reportsAllowed_pollDispatch (s : State) : ReportsAllowed s (pollDispatch s) := by
  unfold pollDispatch
  split
  · next h => exact reportsAllowed_dispatch h
  · exact .refl s

theorem reportsAllowed_pollDrain (s : State) : ReportsAllowed s (pollDrain s) := by
  have hclear : ReportsAllowed s (setInterruptPending false s) := .of_effects_eq rfl
  have hquiet (d : DrvState) (hd : drainsIn d = true) : quiet d = true := by
    revert hd
    cases d <;> decide
  unfold pollDrain
  split
  · next h =>
    exact hclear.trans (reportsAllowed_readHeaderSequence (s := setInterruptPending false s) (hquiet _ h.2))
  · exact .refl s

theorem reportsAllowed_pollStatusTimer (dt : Word32) (s : State) : ReportsAllowed s (pollStatusTimer dt s) := by
  have hadvance : ReportsAllowed s (advanceStatusTimer dt s) := .of_effects_eq rfl
  rcases pollStatusTimer_cases dt s with heq | ⟨v, heq⟩ <;> rw [heq]
  · exact hadvance
  · exact hadvance.trans (reportsAllowed_issueCommand s.cfg.opcStatusGet [] (advanceStatusTimer dt s))

theorem reportsAllowed_pollSocketManager (dt : Word32) (s : State) : ReportsAllowed s (pollSocketManager dt s) := by
  unfold pollSocketManager
  split
  · exact reportsAllowed_smPoll dt s
  · exact .refl s

theorem reportsAllowed_poll (dt : Word32) (s : State) : ReportsAllowed s (poll dt s) :=
  (((reportsAllowed_pollDispatch s).trans (reportsAllowed_pollDrain _)).trans
    (reportsAllowed_pollStatusTimer dt _)).trans (reportsAllowed_pollSocketManager dt _)

/-- Every transition an agent's operation reports is one of the table; only START needs sound parameters, so that its
handshake can be framed. -/
theorem reportsAllowed_exec {s t : State} (hwf : s.cfg.wf = true) {i : Instr} (hi : byAgent i = true)
    (he : exec i s = .next t) : ReportsAllowed s t := by
  refine byAgent_cases (P := fun i => exec i s = .next t → ReportsAllowed s t) ?start ?issueCommand ?issueData ?poll
    ?wlanConnect ?getWlanStatus ?getBuffers ?getIpConfig ?sockAdd ?sockClose ?sockRecv ?sendTo ?onInterrupt
    ?onTransportComplete i hi he
  case start =>
    rintro ⟨⟩
    exact reportsAllowed_startWith hwf (Params.sound hwf).startArgs
  case issueCommand =>
    rintro opcode args ⟨⟩
    exact (reportsAllowed_issueCommand opcode args s).finishStatus
  case issueData =>
    rintro dopcode args data ⟨⟩
    exact (reportsAllowed_issueData dopcode args data s).finishStatus
  case poll =>
    rintro dt ⟨⟩
    exact reportsAllowed_poll dt s
  case wlanConnect =>
    rintro ⟨⟩
    exact (reportsAllowed_wlanConnectWith _ s).finishStatus
  case getWlanStatus | getBuffers | getIpConfig =>
    rintro ⟨⟩
    exact .of_effects_eq rfl
  case sockAdd =>
    rintro family type protocol address ⟨⟩
    exact .of_effects_eq (sockAdd_effects _ _ _ _ s)
  case sockClose =>
    rintro slot ⟨⟩
    obtain ⟨r, u, hturn, heq⟩ := sockClose_turn slot s
    rw [heq]
    exact hturn.reportsAllowed
  case sockRecv =>
    rintro slot length ⟨⟩
    obtain ⟨r, u, hturn, heq⟩ := sockRecv_turn slot length s
    rw [heq]
    exact hturn.reportsAllowed
  case sendTo =>
    rintro slot data address ⟨⟩
    exact reportsAllowed_sendTo slot data address s
  case onInterrupt =>
    rintro ⟨⟩
    exact reportsAllowed_onInterrupt s
  case onTransportComplete =>
    intro rx he
    rcases execOnTransportComplete_cases he with rfl | ⟨x, u, -, hc, rfl⟩
    · exact .of_effects_eq rfl
    · exact (reportsAllowed_completeTransfer hc).trans (.of_effects_eq rfl)

end Sys2Proof.Machine

namespace Sys2Proof.SequencerTransitions

open Sys2Proof.Machine Sys2Proof.Spec

/-- Settles O14: what an agent's operation reports is of the table, and a step adds no report of its own. -/
theorem transitionsAreThoseOfTheTable : Obligations.TransitionsAreThoseOfTheTable := by
  intro s t hinv hstep
  obtain ⟨hagents, hsound⟩ := (engineInv_iff s).1 hinv
  rcases step_cases hstep with ⟨e, rfl⟩ | ⟨i, e, u, f, hrun, hexec, rfl⟩
  · exact ReportsAllowed.of_effects_eq rfl
  · obtain ⟨hi, -⟩ := nextEvent_byAgent hagents hrun
    exact reportsAllowed_exec (s := { s with env := e }) (t := u) hsound.params hi hexec

/-- Settles O13: of the `Move`s only `set_state` writes the state, and it reports from where to where. -/
theorem setStateIsTheOnlyWriter : Obligations.SetStateIsTheOnlyWriter :=
  ⟨fun _ _ => rfl, fun i s t hexec => (exec_moves i s t hexec).traced⟩

end Sys2Proof.SequencerTransitions

/-! The sequencer's operations one by one: the start sequence and the issue operations in the statements' words (R120 to
R122, R142), the two handlers (R123 to R134), the four parts of the polling loop (R135 to R139), and what a step does
without an entry of the schedule. -/

namespace Sys2Proof.Machine

open Sys2Proof.Spec

/-! ### Start (R120) -/

/-- START and its row are the start sequence, with the parameters' or the wire form's arguments (log 16). -/
theorem exec_startRow {i : Instr} {args : List Byte} {s : State}
    (h : (i = .start ∧ args = s.cfg.startArgs) ∨ i = .cmdStart args) : exec i s = .next (startWith args s) := by
  rcases h with ⟨rfl, rfl⟩ | rfl <;> rfl

/-- What START does in `Init` while the line reads idle (R120, log 9). -/
theorem startWith_held (args : List Byte) {s : State} (hs : s.drv.state = .init) (hl : s.env.level = .idle) :
    startWith args s = { s with env := s.env.afterRead, result := .held } := by
  have hread : (readIrqLevel (driveChipEn true (driveIntEn false s))).1 = .idle := hl
  unfold startWith
  rw [if_neg (not_not.2 hs)]
  simp only [hread]
  rfl

/-- The bytes of a frame are what is read back from the buffer that holds it. -/
theorem HoldsFrame.memReadBytes_eq {size : Nat} {before after : Memory} {bytes : List Byte}
    (h : HoldsFrame size before after bytes) : memReadBytes after 0 bytes.length = bytes := by
  refine List.ext_getElem (length_memReadBytes _ _ _) fun j _ hj => ?_
  have hbyte := h.read j
  rw [if_pos hj, List.getD_eq_getElem _ _ hj] at hbyte
  simpa [memReadBytes] using hbyte

/-- The frame that leaves the block and the frame of the statements are one (R66, R120). -/
theorem startWith_sends {args : List Byte} {s : State} (hs : s.drv.state = .init) (hl : s.env.level = .asserted)
    (ha : args.length ≤ 255) (hb : 1700 ≤ s.cfg.bufSize) :
    ∃ tx, Written s.cfg.bufSize s.tx tx 0 (commandFrame s.cfg s.cfg.opcStart args) ∧
      startWith args s = started args tx (commandFrame s.cfg s.cfg.opcStart args) s := by
  have hfits : 5 + (4 + args.length) + 1 ≤ s.cfg.bufSize := by omega
  obtain ⟨tx, hframe, heq⟩ := startWith_started args s hs hl ha hfits
  have ⟨_, _, hlen⟩ := length_commandBytes_bounds (opcode := s.cfg.opcStart) hfits
  rw [hframe.memReadBytes_eq] at heq
  rw [commandFrame_eq_commandBytes]
  exact ⟨tx, hframe.written hlen, heq⟩

/-! ### Issuing (R121, R122, R142) -/

/-- ISSUE_DATA meets R122 as the statements write it. -/
theorem issueData_issueData (dopcode : Byte) (args data : List Byte) (s : State) :
    IssueData dopcode args data s (issueData dopcode args data s).1 (issueData dopcode args data s).2 := by
  have hc := issueData_cases dopcode args data s
  generalize issueData dopcode args data s = r at hc
  cases hc with
  | busy h =>
    refine ⟨fun _ => ⟨rfl, rfl⟩, fun hp hs => ?_, fun hp hs => ?_⟩
    all_goals exact absurd h (by simp [hp, hs])
  | invalid hp hs h =>
    rw [frameDataInvalid_iff] at h
    exact ⟨fun hbusy => absurd hbusy (by simp [hp, hs]), fun _ _ _ => ⟨rfl, rfl⟩, fun _ _ hvalid => absurd h hvalid⟩
  | deferred hp hs hi h =>
    have hvalid : ¬DataInvalid s.cfg args data := by rw [← frameDataInvalid_iff, hi]; nofun
    exact ⟨fun hbusy => absurd hbusy (by simp [hp, hs]), fun _ _ hbad => absurd hbad hvalid,
      fun _ _ _ => ⟨fun _ => ⟨rfl, rfl⟩, fun hidle => (nomatch h.symm.trans hidle)⟩⟩
  | issued hp hs hi h tx ht =>
    have hvalid : ¬DataInvalid s.cfg args data := by rw [← frameDataInvalid_iff, hi]; nofun
    have ⟨_, _, hlen⟩ := length_dataBytes_bounds (dopcode := dopcode) hi
    refine ⟨fun hbusy => absurd hbusy (by simp [hp, hs]), fun _ _ hbad => absurd hbad hvalid,
      fun _ _ _ => ⟨fun hlow => (nomatch h.symm.trans hlow), fun _ => ⟨⟨?_, ?_⟩, rfl⟩⟩⟩
    · rw [dataFrame_eq_dataBytes]
      exact ht.written hlen
    · rw [dataFrame_eq_dataBytes, held_eq_heldLength]
      rfl

/-- WLAN_CONNECT and its row, with the parameters' or the wire form's arguments (log 16). -/
theorem exec_wlanConnectRow {i : Instr} {args : List Byte} {s : State}
    (h : (i = .wlanConnect ∧ args = s.cfg.wlanConnectArgs) ∨ i = .cmdWlanConnect args) :
    exec i s = .next (finishStatus (wlanConnectWith args s)) := by
  rcases h with ⟨rfl, rfl⟩ | rfl <;> rfl

/-- ISSUE_DATA and its row (log 16). -/
theorem exec_dataRow {i : Instr} {dopcode : Byte} {args data : List Byte} {s : State}
    (h : i = .issueData dopcode args data ∨ (i = .dataSendto args data ∧ dopcode = s.cfg.dopcSendto)) :
    exec i s = .next (finishStatus (issueData dopcode args data s)) := by
  rcases h with rfl | ⟨rfl, rfl⟩ <;> rfl

/-! ### The two handlers (R123 to R134) -/

/-- ON_INTERRUPT is its state's row, once the interrupt is counted (R123). -/
theorem exec_onInterrupt_row (s : State) : exec .onInterrupt s = exec (interruptRow s.drv.state) (countInterrupt s) := by
  have hstate : (countInterrupt s).drv.state = s.drv.state := rfl
  show done .nothing (onInterrupt s) = _
  unfold onInterrupt
  dsimp only
  rw [hstate]
  cases s.drv.state <;> rfl

/-- Each of the four rows of an interrupt answers a next state. -/
theorem exec_interruptRow_next (d : DrvState) (s : State) : ∃ t, exec (interruptRow d) s = .next t := by
  cases d <;> exact ⟨_, rfl⟩

/-- A frame that stands in TX goes out (R124, R125). -/
theorem sendFrame_eq (n : Nat) (d : DrvState) (s : State) :
    requestXfer .tx n (setState d (driveIntEn false s)) = { s with
      drv := { s.drv with intEn := false, state := d, xfer := some ⟨.tx, n⟩ }
      effects := s.effects ++ [.intEn false, .obsTransition s.drv.state d, .xfer .tx n] } := by
  simp [requestXfer, setState, driveIntEn, emit]

/-- The read-header sequence, in the statements' words (R126). -/
theorem readStarted_readHeaderSequence (s : State) : ReadStarted s (readHeaderSequence s) := by
  rw [readHeaderSequence_eq]
  exact ⟨written_bufWriteBytes _ _ _ _, rfl⟩

/-- Chip-select off, the new state, the line enabled (R129, R130, R133). -/
theorem release_eq (d : DrvState) (s : State) :
    driveIntEn true (setState d (driveCs false s)) = released d s := by
  simp [released, driveIntEn, driveCs, setState, emit]

/-- What follows the header once its bytes are counted (R131). -/
theorem exec_readingHeader (s : State) :
    exec .onTransportCompleteReadingHeader s =
      if receivedLength s = 0 then done .nothing (finishReceive (countBytesRx spiHdrLen s))
      else if 5 + receivedLength s > s.cfg.bufSize then .fault .rxOverflow
      else done .nothing
        (requestXfer .rx (receivedLength s) (setState .readingPayload (countBytesRx spiHdrLen s))) := by
  have hlen : receivedLength (countBytesRx spiHdrLen s) = receivedLength s := rfl
  show finishCompletion (completeReadingHeader s) = _
  unfold completeReadingHeader
  simp only [hlen, countBytesRx_cfg]
  split
  · rfl
  · split <;> rfl

/-! ### The polling loop, part by part (R136 to R139) -/

theorem issueCommand_state (opcode : Opcode) (args : List Byte) (s : State) :
    (issueCommand opcode args s).1.drv.state = s.drv.state ∨
      (issueCommand opcode args s).1.drv.state = .commandRequest := by
  have hc := issueCommand_cases opcode args s
  generalize issueCommand opcode args s = r at hc
  cases hc with
  | issued => exact .inr rfl
  | _ => exact .inl rfl

/-- ISSUE_COMMAND leaves the status timer to POLL (R32, R121). -/
theorem issueCommand_statusTimer (opcode : Opcode) (args : List Byte) (s : State) :
    (issueCommand opcode args s).1.drv.statusTimer = s.drv.statusTimer := by
  have hc := issueCommand_cases opcode args s
  generalize issueCommand opcode args s = r at hc
  cases hc <;> rfl

theorem onStatusGet_state (args : List Byte) (s : State) :
    (onStatusGet args s).drv.state = s.drv.state ∨ (onStatusGet args s).drv.state = .commandRequest := by
  unfold onStatusGet
  split
  · exact .inl rfl
  · next v _ =>
    dsimp only
    split
    · exact issueCommand_state _ _ (recordWlanStatus v s)
    · exact .inl rfl

/-- A reply to the pending command is handled in `Idle` and ends there, or in the state its rule asks for (R165). -/
theorem dispatchMatchingReply_state (opcode : Opcode) (args : List Byte) (s : State) :
    let d := (dispatchMatchingReply opcode args s).1.drv.state
    d = .idle ∨ d = .commandRequest ∨ d = .receivingData := by
  unfold dispatchMatchingReply
  dsimp only
  split
  · exact .inl (state_of_observerView (onBufferSize_observerView args (clearPending s)))
  · split
    · exact (onStatusGet_state args (clearPending s)).imp id .inl
    · split
      · rcases sockReply_observed opcode args (s.sm.current.map Fin.val) (clearPending s) with hview | heq
        · exact .inl (state_of_observerView hview)
        · exact .inr (.inr (congrArg (fun u : State => u.drv.state) heq))
      · split <;> exact .inl rfl

/-- Whatever the packet is, a dispatch leaves `EventReady` (R160, D25). -/
theorem dispatch_state_ne (s : State) : (dispatch s).1.drv.state ≠ .eventReady := by
  have hc := dispatch_case s
  generalize (dispatch s).1 = t at hc
  cases hc with
  | resumed =>
    unfold resume
    split <;> simp
  | @reply u opcode args =>
    rcases dispatchMatchingReply_state opcode args u with h | h | h <;> rw [h] <;> nofun

theorem drainsIn_iff (d : DrvState) : drainsIn d = true ↔ d = .idle ∨ d = .awaitingReply ∨ d = .receivingData :=
  decide_eq_true_iff

theorem driverFree_iff (s : State) : driverFree s = true ↔ s.drv.state = .idle ∧ s.drv.pendingCommand = none := by
  simp [driverFree]

theorem networkUp_iff (s : State) :
    networkUp s = true ↔ s.drv.wlanStatus = s.cfg.wlanConnected ∧ s.drv.dhcpComplete = true := by
  simp [networkUp]

/-- The status timer at its interval with the driver free: the status-get, and the timer zero when it was accepted
(R138). -/
theorem pollStatusTimer_due {dt : Word32} {s : State}
    (h : s.cfg.statusPollInterval ≤ (saturatingAdd s.drv.statusTimer dt).toNat ∧ driverFree s = true) :
    pollStatusTimer dt s =
      let r := issueCommand s.cfg.opcStatusGet [] (advanceStatusTimer dt s)
      { r.1 with drv := { r.1.drv with
        statusTimer := if r.2 = .ok then 0 else saturatingAdd s.drv.statusTimer dt } } := by
  have htimer : (issueCommand s.cfg.opcStatusGet [] (advanceStatusTimer dt s)).1.drv.statusTimer =
      saturatingAdd s.drv.statusTimer dt := issueCommand_statusTimer _ _ (advanceStatusTimer dt s)
  refine (if_pos h).trans ?_
  rw [advanceStatusTimer_cfg]
  generalize issueCommand s.cfg.opcStatusGet [] (advanceStatusTimer dt s) = r at htimer
  obtain ⟨t, _ | e⟩ := r
  · rfl
  · rw [← htimer]
    rfl

theorem pollStatusTimer_notDue {dt : Word32} {s : State}
    (h : ¬(s.cfg.statusPollInterval ≤ (saturatingAdd s.drv.statusTimer dt).toNat ∧ driverFree s = true)) :
    pollStatusTimer dt s = advanceStatusTimer dt s := if_neg h

/-! ### What the last operation returned has no part in the polling loop (log 22) -/

/-- The operation `f` neither reads nor writes what the operation before it returned. -/
def IgnoresResult (f : State → State) : Prop := ∀ r s, f (finish r s) = finish r (f s)

theorem IgnoresResult.comp {f g : State → State} (hg : IgnoresResult g) (hf : IgnoresResult f) :
    IgnoresResult fun s => g (f s) :=
  fun r s => (congrArg g (hf r s)).trans (hg r (f s))

/-- Run by itself, such an operation ends as it does after one that returned anything. -/
theorem IgnoresResult.done {f : State → State} (hf : IgnoresResult f) (q r : OpResult) (s : State) :
    done r (f (finish q s)) = done r (f s) := by
  rw [hf]
  rfl

/-- An operation that does one of two things, by a test that does not look at the result. -/
theorem IgnoresResult.ite {c : State → Prop} [DecidablePred c] {f g : State → State}
    (hc : ∀ r s, c (finish r s) ↔ c s) (hf : IgnoresResult f) (hg : IgnoresResult g) :
    IgnoresResult fun s => if c s then f s else g s := by
  intro r s
  dsimp only
  by_cases h : c s
  · rw [if_pos h, if_pos ((hc r s).2 h), hf]
  · rw [if_neg h, if_neg fun hcr => h ((hc r s).1 hcr), hg]

theorem frameCommand_finish (opcode : Opcode) (args : List Byte) (r : OpResult) (s : State) :
    frameCommand opcode args (finish r s) = (frameCommand opcode args s).map fun u => (finish r u.1, u.2) := by
  unfold frameCommand
  rw [finish_cfg]
  split_ifs <;> rfl

theorem issueCommand_finish (opcode : Opcode) (args : List Byte) (r : OpResult) (s : State) :
    issueCommand opcode args (finish r s) =
      (finish r (issueCommand opcode args s).1, (issueCommand opcode args s).2) := by
  have hread : readIrqLevel (driveIntEn false (finish r s)) =
      ((readIrqLevel (driveIntEn false s)).1, finish r (readIrqLevel (driveIntEn false s)).2) := rfl
  unfold issueCommand
  rw [finish_drv, hread]
  dsimp only
  split
  · rfl
  · split
    · rfl
    · cases (readIrqLevel (driveIntEn false s)).1 with
      | asserted => rfl
      | idle =>
        dsimp only
        rw [frameCommand_finish]
        cases frameCommand opcode args (readIrqLevel (driveIntEn false s)).2 <;> rfl

theorem ignoresResult_pollDrain : IgnoresResult pollDrain :=
  .ite (c := fun s => s.drv.interruptPending = true ∧ drainsIn s.drv.state = true)
    (f := fun s => readHeaderSequence (setInterruptPending false s)) (g := id)
    (fun _ _ => .rfl) (fun _ _ => rfl) (fun _ _ => rfl)

theorem ignoresResult_pollStatusTimer (dt : Word32) : IgnoresResult (pollStatusTimer dt) := by
  intro r s
  have hadvance : advanceStatusTimer dt (finish r s) = finish r (advanceStatusTimer dt s) := rfl
  by_cases h : s.cfg.statusPollInterval ≤ (saturatingAdd s.drv.statusTimer dt).toNat ∧ driverFree s = true
  · rw [pollStatusTimer_due h, pollStatusTimer_due (s := finish r s) h, hadvance, issueCommand_finish]
    rfl
  · rw [pollStatusTimer_notDue h, pollStatusTimer_notDue (s := finish r s) h, hadvance]

theorem issueThen_finish (i : Nat) (opcode : Opcode) (args : List Byte) (f : Socket → Socket) (r : OpResult)
    (s : State) : issueThen i opcode args f (finish r s) = finish r (issueThen i opcode args f s) := by
  rw [issueThen_eq, issueThen_eq, issueCommand_finish]
  cases (issueCommand opcode args s).2 <;> rfl

theorem ignoresResult_smCreated (i : Nat) (k : Socket) : IgnoresResult (smCreated i k) :=
  .ite (c := fun s => k.type = s.cfg.typeStream)
    (f := fun s => issueThen i s.cfg.opcConnect (argsConnect s.cfg.codec k.descriptor k.address)
      (fun k => { k with state := .connecting }) s)
    (fun _ _ => .rfl) (fun r s => issueThen_finish _ _ _ _ r s) (fun _ _ => rfl)

theorem ignoresResult_smFailed (i : Nat) (dt : Word32) (k : Socket) : IgnoresResult (smFailed i dt k) :=
  .ite (c := fun _ => k.retryTimeout = 0) (fun _ _ => .rfl) (fun _ _ => rfl) (fun _ _ => rfl)

theorem ignoresResult_smReady (i : Nat) (k : Socket) : IgnoresResult (smReady i k) :=
  .ite (c := fun _ => k.readable = true)
    (f := fun s => issueThen i s.cfg.opcRecv (argsRecv s.cfg.codec k.descriptor s.cfg.recvMaxLen)
      (fun k => { k with readable := false }) s)
    (fun _ _ => .rfl) (fun r s => issueThen_finish _ _ _ _ r s) (fun _ _ => rfl)

theorem ignoresResult_smSlot (dt : Word32) (i : Nat) : IgnoresResult (smSlot dt i) := by
  intro r s
  have hat : socketAt (finish r s) i = socketAt s i := rfl
  unfold smSlot
  rw [hat]
  cases socketAt s i with
  | none => rfl
  | some k =>
    dsimp only
    cases k.state with
    | init | closeWait => exact issueThen_finish _ _ _ _ r s
    | created => exact ignoresResult_smCreated i k r s
    | failed => exact ignoresResult_smFailed i dt k r s
    | ready => exact ignoresResult_smReady i k r s
    | _ => rfl

theorem ignoresResult_smSlots (dt : Word32) (slots : List Nat) :
    IgnoresResult fun s => slots.foldl (fun t i => smSlot dt i t) s := by
  induction slots with
  | nil => exact fun _ _ => rfl
  | cons i rest ih => exact ih.comp (ignoresResult_smSlot dt i)

theorem ignoresResult_smSelect : IgnoresResult smSelect := by
  intro r s
  have hfree : driverFree (finish r s) = driverFree s := rfl
  rw [smSelect_eq, smSelect_eq]
  simp only [finish_sm, finish_cfg, hfree, issueCommand_finish]
  split
  · cases (issueCommand s.cfg.opcSelect (argsSelect s.cfg.codec (selectMask s.sm.table)) s).2 <;> rfl
  · rfl

theorem ignoresResult_smPoll (dt : Word32) : IgnoresResult (smPoll dt) := by
  intro r s
  exact (congrArg smSelect (ignoresResult_smSlots dt (List.range s.sm.count) r s)).trans (ignoresResult_smSelect r _)

theorem ignoresResult_pollSocketManager (dt : Word32) : IgnoresResult (pollSocketManager dt) :=
  .ite (c := fun s => networkUp s = true) (g := id) (fun _ _ => .rfl) (ignoresResult_smPoll dt) (fun _ _ => rfl)

/-! ### A step without an entry of the schedule (R140, R247, R90) -/

/-- Only a held operation is settled otherwise than as it ended. -/
theorem settle_of_not_held {l : List Stimulus} {o : Outcome} (h : ∀ t, o = .next t → t.result ≠ .held) :
    settle l o = o := by
  cases o with
  | next t => exact if_neg (h t rfl)
  | _ => rfl

/-- The transport's completion is never held. -/
theorem onTransportComplete_not_held {rx : List Byte} {s t : State} (h : exec (.onTransportComplete rx) s = .next t) :
    t.result ≠ .held := by
  rcases execOnTransportComplete_cases h with rfl | ⟨x, u, -, -, rfl⟩ <;> simp

/-- Next on the schedule, an encoding of no operation is rejected, whichever kind it is. -/
theorem scheduled_rejected {s : State} {enc : Encoding} {irq : List Level} {rest : List Stimulus} {e : DecodeError}
    (hsched : s.env.schedule = stimulus irq enc :: rest)
    (hdec : decode s.cfg s.drv.pendingCommand enc = .rejected e) : scheduled s = .reject e := by
  cases enc with
  | wire site bytes =>
    have hwire : decodeWire s.cfg s.drv.pendingCommand site bytes = .rejected e := hdec
    rw [scheduled_wire hsched, hwire]
    rfl
  | line op =>
    have hline : decodeLine op = .rejected e := hdec
    rw [scheduled_line hsched, hline]
    rfl

end Sys2Proof.Machine

namespace Sys2Proof.SequencerRules

open Sys2Proof.Machine Sys2Proof.Spec

/-- Settles O27: the three ways START ends when the line does not hold it. -/
theorem startSendsTheHandshake : Obligations.StartSendsTheHandshake := by
  intro i args s hi
  rw [exec_startRow hi]
  refine ⟨fun hs => ?refused, fun hs hl ha => ?unframed, fun hs hl ha hb => ?sent⟩
  case refused => exact congrArg Host.Outcome.next (if_pos hs)
  case unframed => rw [startWith_unframed args s hs hl ha]
  case sent =>
    obtain ⟨tx, hwritten, heq⟩ := startWith_sends hs hl ha hb
    refine ⟨_, rfl, ?_, ?_⟩ <;> rw [heq]
    · exact hwritten
    · rw [commandFrame_eq_commandBytes]
      rfl

/-- Settles O28: the level read is idle, so START ends before its first effect. -/
theorem startHoldsWhileTheLineIsIdle : Obligations.StartHoldsWhileTheLineIsIdle := by
  intro i s hi hs hl
  have hrow : ∃ args, exec i s = .next (startWith args s) := by
    rcases hi with rfl | ⟨args, rfl⟩
    · exact ⟨_, exec_startRow (.inl ⟨rfl, rfl⟩)⟩
    · exact ⟨_, exec_startRow (.inr rfl)⟩
  obtain ⟨args, hrow⟩ := hrow
  rw [hrow, startWith_held args hs hl]

/-- Settles O29: `issue_issueCommand`, and the status it returns. -/
theorem issueCommandOutcomes : Obligations.IssueCommandOutcomes := by
  intro opcode args s hwf
  refine ⟨_, _, issue_issueCommand opcode args hwf, ?_⟩
  rw [← finishStatus_eq]
  rfl

/-- Settles O31: refused outside `Idle`, and in `Idle` ISSUE_COMMAND. -/
theorem wlanConnectOutcomes : Obligations.WlanConnectOutcomes := by
  intro i args s hi hwf
  rw [exec_wlanConnectRow hi]
  refine ⟨fun hs => ?refused, fun hs => ⟨_, _, issue_issueCommand s.cfg.opcWlanConnect args hwf, ?issued⟩⟩
  case refused => exact congrArg (fun r => Host.Outcome.next (finishStatus r)) (if_pos hs)
  case issued =>
    have hissue : wlanConnectWith args s = issueCommand s.cfg.opcWlanConnect args s := if_neg (not_not.2 hs)
    rw [hissue, finishStatus_eq]

/-- Settles O32: `issueData_issueData`, and the status it returns. -/
theorem issueDataOutcomes : Obligations.IssueDataOutcomes := by
  intro i dopcode args data s hi
  refine ⟨_, _, issueData_issueData dopcode args data s, ?_⟩
  rw [exec_dataRow hi, finishStatus_eq]

/-- Settles O33: the row of the state, run in the state with the interrupt counted. -/
theorem interruptsAreCountedAndServedByState : Obligations.InterruptsAreCountedAndServedByState := by
  intro s counted
  obtain ⟨t, ht⟩ := exec_interruptRow_next s.drv.state counted
  exact ⟨t, ht, (exec_onInterrupt_row s).trans ht⟩

/-- Settles O34: the two sends, the read-header sequence, and the latch. -/
theorem interruptsStartTransactions : Obligations.InterruptsStartTransactions := by
  refine ⟨fun i target s hi => ?send, fun s => ⟨_, readStarted_readHeaderSequence s, rfl⟩, fun _ => rfl⟩
  case send =>
    have hrow : exec i s =
        done .nothing (requestXfer .tx s.drv.transmitLength.toNat (setState target (driveIntEn false s))) := by
      rcases hi with ⟨rfl, rfl⟩ | ⟨rfl, rfl⟩ <;> rfl
    rw [hrow, sendFrame_eq]
    rfl

/-- Settles O36: each row counts its bytes and releases the chip. -/
theorem completionsReleaseTheChip : Obligations.CompletionsReleaseTheChip := by
  refine ⟨fun n s => ?command, fun n s => ?data, fun n s => ?payload, fun s => ?receive⟩
  case command => exact congrArg (done .nothing) (release_eq .awaitingReply (countBytesTx n s))
  case data => exact congrArg (done .nothing) (release_eq .idle (countBytesTx n s))
  case payload => exact congrArg (done .nothing) (release_eq .eventReady (countBytesRx n s))
  case receive => exact congrArg (done .nothing) (release_eq .eventReady s)

/-- Settles O37: the three ways on from a header, by the length it gives. -/
theorem headerDecidesThePayload : Obligations.HeaderDecidesThePayload := by
  intro s c
  have hend : finishReceive c = released .eventReady c := release_eq .eventReady c
  have hread : requestXfer .rx (receivedLength s) (setState .readingPayload c) = { c with
      drv := { c.drv with state := .readingPayload, xfer := some ⟨.rx, receivedLength s⟩ }
      effects := s.effects ++
        [.obsTransition s.drv.state .readingPayload, .xfer .rx (receivedLength s)] } := by
    simp [requestXfer, setState, emit, c]
  have hcount : countBytesRx spiHdrLen s = c := rfl
  rw [exec_readingHeader, rxLength_eq_receivedLength, hcount, hend, hread]
  rfl

/-- Settles O38: with no transaction in flight the completion is R134's row. -/
theorem completionWithoutATransactionIsRefused : Obligations.CompletionWithoutATransactionIsRefused := by
  refine fun s => ⟨rfl, fun hx rx => ?_⟩
  simp only [exec, execOnTransportComplete, hx]
  rfl

/-- Settles O39: each accessor is its register. -/
theorem accessorsReadTheirRegister : Obligations.AccessorsReadTheirRegister := fun _ => ⟨rfl, rfl, rfl⟩

/-- Settles O40: in `EventReady` P1 is the dispatch, which leaves that state; P2 by its guard. -/
theorem pollDispatchesAndDrains : Obligations.PollDispatchesAndDrains := by
  refine ⟨fun s => ?dispatch, fun s => ?drain⟩
  case dispatch =>
    by_cases hs : s.drv.state = .eventReady
    · have hdispatch : pollDispatch s = (dispatch s).1 := if_pos hs
      refine ⟨finish (.verdict (dispatch s).2) (dispatch s).1, ?_, dispatch_state_ne s, ?_⟩
      · show done .nothing (pollDispatch s) = _
        rw [hdispatch]
        rfl
      · rw [if_pos hs]
        rfl
    · refine ⟨s, congrArg (done .nothing) (if_neg hs), hs, ?_⟩
      rw [if_neg hs]
  case drain =>
    split
    · next h =>
      rw [← drainsIn_iff] at h
      exact ⟨_, readStarted_readHeaderSequence (setInterruptPending false s), congrArg (done .nothing) (if_pos h)⟩
    · next h =>
      rw [← drainsIn_iff] at h
      exact congrArg (done .nothing) (if_neg h)

/-- Settles O41: the timer's guard; when it is due, ISSUE_COMMAND in the state with the timer advanced. -/
theorem pollIssuesTheStatusGet : Obligations.PollIssuesTheStatusGet := by
  intro dt s hwf timer c
  split
  · next h =>
    rw [← driverFree_iff] at h
    refine ⟨_, _, issue_issueCommand (s := c) s.cfg.opcStatusGet [] hwf, ?_⟩
    exact congrArg (done .nothing) (pollStatusTimer_due h)
  · next h =>
    rw [← driverFree_iff] at h
    exact congrArg (done .nothing) (pollStatusTimer_notDue h)

/-- Settles O42: P4's guard. -/
theorem theSocketManagerPollsOnceTheNetworkIsUp : Obligations.TheSocketManagerPollsOnceTheNetworkIsUp := by
  intro dt s
  split
  · next h => exact ⟨_, rfl, congrArg (done .nothing) (if_pos ((networkUp_iff s).2 h))⟩
  · next h => exact congrArg (done .nothing) (if_neg fun hup => h ((networkUp_iff s).1 hup))

/-- Settles O43: each part run by itself differs from its part in POLL in what it returns, which the next part neither
reads nor keeps. -/
theorem pollIsItsFourParts : Obligations.PollIsItsFourParts := by
  intro dt s
  exact ⟨_, _, _, _, rfl, ignoresResult_pollDrain.done .nothing .nothing (pollDispatch s),
    (ignoresResult_pollStatusTimer dt).done .nothing .nothing (pollDrain (pollDispatch s)),
    (ignoresResult_pollSocketManager dt).done .nothing .nothing (pollStatusTimer dt (pollDrain (pollDispatch s))), rfl⟩

/-- Settles O5: what comes next is the completion, nothing, or a rejection. -/
theorem stepWithoutAnOperation : Obligations.StepWithoutAnOperation := by
  refine ⟨fun s hdue => ?completion, fun s hsched hdue hedge => ?rest,
    fun s enc irq rest e hsched hdue hedge hdec => ?rejected⟩
  case completion =>
    have hrun : nextEvent s = .run (.onTransportComplete []) s := if_pos hdue
    rw [step_of_run hrun]
    exact settle_of_not_held fun _ => onTransportComplete_not_held
  case rest =>
    have hnext : nextEvent s = .rest := by
      rw [nextEvent_eq_scheduled hdue hedge]
      simp only [scheduled, hsched]
    simp only [step, hnext]
  case rejected =>
    have hnext : nextEvent s = .reject e := by
      rw [nextEvent_eq_scheduled hdue hedge, scheduled_rejected hsched hdec]
    simp only [step, hnext]

end Sys2Proof.SequencerRules

/-! The dispatcher: the branch a packet selects, what each branch leaves, and what no dispatch does (R160 to R176;
42_dispatcher). -/

namespace Sys2Proof.Machine

open Sys2Proof.Spec

/-! ### Resuming (R161) -/

theorem resume_eq_resumed (s : State) : resume s = resumed s := by
  unfold resume resumed
  split <;> rfl

/-- Run by itself, a dispatch that only resumes ends with its verdict. -/
theorem finishDispatch_resume (v : Verdict) (s : State) :
    finishDispatch (resume s, v) = .next { resumed s with result := .verdict v } := by
  rw [resume_eq_resumed]
  rfl

/-! ### Parsed packets (R105, R106) -/

theorem parseDataHeader_data_length {s : State} {h : DataHeader} (hparse : parseDataHeader s = some h) :
    h.data.length = h.dataLen := by
  rcases parseDataPayload_cases s.cfg (receivedPayload s) with hnone | ⟨_, hsome, -, -, hlen⟩
  · cases hnone.symm.trans hparse
  · cases hsome.symm.trans hparse
    exact hlen

theorem parseEventHeader_args_length {s : State} {h : EventHeader} (hparse : parseEventHeader s = some h) :
    h.args.length = h.argLen := by
  rcases parseEventPayload_cases (receivedPayload s) with hnone | ⟨_, hsome, -, -, hlen⟩
  · cases hnone.symm.trans hparse
  · cases hsome.symm.trans hparse
    exact hlen

theorem dispatchData_malformed {s : State} (h : parseDataHeader s = none) : dispatchData s = dispatchInvalid s := by
  rw [dispatchData, h]

/-- A data packet that parses is handled by its fields; its data is as long as its header says (R106, R162). -/
theorem dispatchData_parsed {s : State} {h : DataHeader} (hparse : parseDataHeader s = some h) :
    dispatchData s = dispatchDataWith h.dopcode h.dargs h.data h.data.length s := by
  rw [dispatchData, hparse, parseDataHeader_data_length hparse]

theorem dispatchEvent_malformed {s : State} (h : parseEventHeader s = none) : dispatchEvent s = dispatchInvalid s := by
  rw [dispatchEvent, h]

/-- An event that parses is handled by its fields; it has as many arguments as its header says (R105, R163). -/
theorem dispatchEvent_parsed {s : State} {h : EventHeader} (hparse : parseEventHeader s = some h) :
    dispatchEvent s = dispatchEventWith h.opcode h.args h.args.length s := by
  rw [dispatchEvent, hparse, parseEventHeader_args_length hparse]

/-- The payload's first byte is the one DISPATCH takes for its tag (R160). -/
theorem receivedPayload_of_tag {s : State} (hbuf : spiHdrLen < s.cfg.bufSize) (hlen : receivedLength s ≠ 0) :
    ∃ rest, receivedPayload s = memRead s.rx spiHdrLen :: rest := by
  cases hpayload : receivedPayload s with
  | nil =>
    rw [← length_receivedPayload, hpayload] at hlen
    exact absurd rfl hlen
  | cons tag rest =>
    obtain ⟨-, htag⟩ := receivedPayload_eq_cons hbuf hpayload
    exact ⟨rest, by rw [htag]⟩

/-! ### Events by their opcode (R163, R164) -/

theorem ult_unsolThreshold_iff (opcode : Opcode) :
    opcode.ult unsolThreshold = true ↔ opcode.toNat < unsolThreshold.toNat := decide_eq_true_iff

theorem dispatchEventWith_unsolicited {opcode : Opcode} (h : unsolThreshold.toNat ≤ opcode.toNat) (args : List Byte)
    (n : Nat) (s : State) :
    dispatchEventWith opcode args n s = dispatchUnsolicited opcode args (reportEvent opcode args n s) :=
  if_neg fun hlow => Nat.not_lt.2 h ((ult_unsolThreshold_iff opcode).1 hlow)

theorem dispatchEventWith_matching {opcode : Opcode} (h : opcode.toNat < unsolThreshold.toNat) {s : State}
    (hp : s.drv.pendingCommand = some opcode) (args : List Byte) (n : Nat) :
    dispatchEventWith opcode args n s = dispatchMatchingReply opcode args (reportEvent opcode args n s) :=
  (if_pos ((ult_unsolThreshold_iff opcode).2 h)).trans (if_pos hp)

theorem dispatchEventWith_unexpected {opcode : Opcode} (h : opcode.toNat < unsolThreshold.toNat) {s : State}
    (hp : s.drv.pendingCommand ≠ some opcode) (args : List Byte) (n : Nat) :
    dispatchEventWith opcode args n s = (resume (reportEvent opcode args n s), .invalid) :=
  (if_pos ((ult_unsolThreshold_iff opcode).2 h)).trans (if_neg hp)

theorem dispatchUnsolicited_dhcp {opcode : Opcode} {s : State} (h : opcode = s.cfg.evDhcp) (args : List Byte) :
    dispatchUnsolicited opcode args s = (resume (onDhcp args (countUnsolicited s)), .unsolicited opcode) := if_pos h

theorem dispatchUnsolicited_closeWait {opcode : Opcode} {s : State} (hd : opcode ≠ s.cfg.evDhcp)
    (h : opcode = s.cfg.evCloseWait) (args : List Byte) :
    dispatchUnsolicited opcode args s = (resume (onCloseWait args (countUnsolicited s)), .unsolicited opcode) :=
  (if_neg hd).trans (if_pos h)

theorem dispatchUnsolicited_other {opcode : Opcode} {s : State} (hd : opcode ≠ s.cfg.evDhcp)
    (hc : opcode ≠ s.cfg.evCloseWait) (args : List Byte) :
    dispatchUnsolicited opcode args s = (resume (countUnsolicited s), .unrecognized opcode) :=
  (if_neg hd).trans (if_neg hc)

/-! ### The reply to the pending command, by its opcode (R165) -/

theorem isSocketOpcode_iff (p : Params) (opcode : Opcode) :
    isSocketOpcode p opcode = true ↔ opcode ∈ lifecycle p := by
  simp [isSocketOpcode, lifecycle]

/-- A socket-lifecycle opcode's row is its SOCK_REPLY case (R172). -/
theorem exec_replyRow (opcode : Opcode) (args : List Byte) (cur : Option Nat) (s : State) :
    exec (replyRow s.cfg opcode args cur) s = done .nothing (sockReply opcode args cur s) := by
  unfold replyRow sockReply
  split_ifs <;> rfl

theorem ne_opcodeOf_of_not_named {p : Params} {opcode : Opcode} (h : p.named opcode = false) (c : CmdName) :
    opcode ≠ p.opcodeOf c := by
  rintro rfl
  simp only [Params.named, List.any_eq_false, beq_iff_eq] at h
  exact h c (by cases c <;> decide) rfl

/-- The opcodes the socket table answers for are named ones (R88, R165). -/
theorem named_of_isSocketOpcode {p : Params} {opcode : Opcode} (h : isSocketOpcode p opcode = true) :
    ∃ c, opcode = p.opcodeOf c := by
  simp only [isSocketOpcode, decide_eq_true_eq] at h
  rcases h with h | h | h | h | h | h | h | h
  exacts [⟨.socket, h⟩, ⟨.bind, h⟩, ⟨.connect, h⟩, ⟨.listen, h⟩, ⟨.accept, h⟩, ⟨.close, h⟩, ⟨.select, h⟩,
    ⟨.recv, h⟩]

theorem dispatchMatchingReply_bufferSize (args : List Byte) (s : State) :
    dispatchMatchingReply s.cfg.opcBufferSize args s =
      (onBufferSize args (clearPending s), .reply s.cfg.opcBufferSize) := if_pos rfl

theorem dispatchMatchingReply_statusGet {s : State} (hwf : s.cfg.wf = true) (args : List Byte) :
    dispatchMatchingReply s.cfg.opcStatusGet args s =
      (onStatusGet args (clearPending s), .reply s.cfg.opcStatusGet) :=
  (if_neg (opcodeOf_ne hwf (a := .statusGet) (b := .bufferSize) (by decide))).trans (if_pos rfl)

theorem dispatchMatchingReply_socket {s : State} (hwf : s.cfg.wf = true) {opcode : Opcode}
    (h : isSocketOpcode s.cfg opcode = true) (args : List Byte) :
    dispatchMatchingReply opcode args s =
      (sockReply opcode args (s.sm.current.map Fin.val) (clearPending s), .reply opcode) := by
  obtain ⟨hbuf, hstat, -, -⟩ := socketOpcode_ne (Params.sound hwf) h
  exact ((if_neg hbuf).trans (if_neg hstat)).trans (if_pos h)

/-- The replies of START and WLAN_CONNECT do nothing of their own (R173). -/
theorem dispatchMatchingReply_plain {s : State} (hwf : s.cfg.wf = true) {opcode : Opcode}
    (h : opcode = s.cfg.opcStart ∨ opcode = s.cfg.opcWlanConnect) (args : List Byte) :
    dispatchMatchingReply opcode args s = (clearPending s, .reply opcode) := by
  have hsock : ¬isSocketOpcode s.cfg opcode = true := by
    intro hs
    obtain ⟨-, -, hstart, hconnect⟩ := socketOpcode_ne (Params.sound hwf) hs
    exact h.elim hstart hconnect
  obtain ⟨hbuf, hstat⟩ : opcode ≠ s.cfg.opcBufferSize ∧ opcode ≠ s.cfg.opcStatusGet := by
    rcases h with rfl | rfl
    · exact ⟨opcodeOf_ne hwf (a := .start) (b := .bufferSize) (by decide),
        opcodeOf_ne hwf (a := .start) (b := .statusGet) (by decide)⟩
    · exact ⟨opcodeOf_ne hwf (a := .wlanConnect) (b := .bufferSize) (by decide),
        opcodeOf_ne hwf (a := .wlanConnect) (b := .statusGet) (by decide)⟩
  exact (((if_neg hbuf).trans (if_neg hstat)).trans (if_neg hsock)).trans (if_pos h)

/-- A reply no rule names does nothing of its own (R174). -/
theorem dispatchMatchingReply_unnamed {s : State} {opcode : Opcode} (h : s.cfg.named opcode = false)
    (args : List Byte) : dispatchMatchingReply opcode args s = (clearPending s, .unrecognized opcode) := by
  have hne := ne_opcodeOf_of_not_named h
  have hsock : ¬isSocketOpcode s.cfg opcode = true := by
    intro hs
    obtain ⟨c, hc⟩ := named_of_isSocketOpcode hs
    exact hne c hc
  have hplain : ¬(opcode = s.cfg.opcStart ∨ opcode = s.cfg.opcWlanConnect) :=
    not_or.2 ⟨hne .start, hne .wlanConnect⟩
  exact (((if_neg (hne .bufferSize)).trans (if_neg (hne .statusGet))).trans (if_neg hsock)).trans (if_neg hplain)

/-! ### What no dispatch does (R176) -/

/-- An effect that asks for a transaction or drives the chip's enable line. -/
def requests : Effect → Bool
  | .chipEn _ | .xfer .. | .xferBlocking .. => true
  | _ => false

theorem ne_of_not_requests {e : Effect} (h : requests e = false) (kind : XferKind) (n : Nat) (v : Bool) :
    e ≠ .xfer kind n ∧ e ≠ .xferBlocking kind n ∧ e ≠ .chipEn v := by
  refine ⟨?_, ?_, ?_⟩ <;> rintro rfl <;> cases h

theorem not_requests_of_not_drives {e : Effect} (h : drives e = false) : requests e = false := by
  cases e with
  | chipEn | xfer | xferBlocking => cases h
  | _ => rfl

/-- From `s` to `t` neither RX nor `interrupt_pending` changes, and no effect of the class `p` is added. -/
structure Withholds (p : Effect → Bool) (s t : State) : Prop where
  rx : t.rx = s.rx
  interruptPending : t.drv.interruptPending = s.drv.interruptPending
  effects : ∃ new, t.effects = s.effects ++ new ∧ ∀ e ∈ new, p e = false

theorem Withholds.trans {p : Effect → Bool} {s t u : State} (h : Withholds p s t) (g : Withholds p t u) :
    Withholds p s u := by
  obtain ⟨new, hnew, hp⟩ := h.effects
  obtain ⟨more, hmore, hq⟩ := g.effects
  refine ⟨g.rx.trans h.rx, g.interruptPending.trans h.interruptPending, new ++ more, ?_, fun e he => ?_⟩
  · rw [hmore, hnew, List.append_assoc]
  · rcases List.mem_append.1 he with he | he
    · exact hp e he
    · exact hq e he

theorem Withholds.mono {p q : Effect → Bool} {s t : State} (h : Withholds p s t)
    (hpq : ∀ e, p e = false → q e = false) : Withholds q s t := by
  obtain ⟨new, hnew, hp⟩ := h.effects
  exact ⟨h.rx, h.interruptPending, new, hnew, fun e he => hpq e (hp e he)⟩

/-- What a dispatch without a connect keeps: TX besides, and every line. -/
structure Undriven (s t : State) : Prop where
  tx : t.tx = s.tx
  withholds : Withholds drives s t

theorem Undriven.trans {s t u : State} (h : Undriven s t) (g : Undriven t u) : Undriven s u :=
  ⟨g.tx.trans h.tx, h.withholds.trans g.withholds⟩

theorem Undriven.requestsNothing {s t : State} (h : Undriven s t) : Withholds requests s t :=
  h.withholds.mono fun _ => not_requests_of_not_drives

/-- All that `Undriven` reads of the state. -/
def linesView (s : State) : Memory × Memory × Bool × List Effect :=
  (s.tx, s.rx, s.drv.interruptPending, s.effects)

theorem Undriven.of_linesView {s t : State} (h : linesView t = linesView s) : Undriven s t := by
  simp only [linesView, Prod.mk.injEq] at h
  obtain ⟨htx, hrx, hpending, heffects⟩ := h
  exact ⟨htx, hrx, hpending, [], by rw [heffects, List.append_nil], by simp⟩

theorem Undriven.refl (s : State) : Undriven s s := .of_linesView rfl

theorem undriven_emit {e : Effect} (h : drives e = false) (s : State) : Undriven s (emit e s) :=
  ⟨rfl, rfl, rfl, [e], rfl, by simpa using h⟩

theorem undriven_setState (d : DrvState) (s : State) : Undriven s (setState d s) :=
  ⟨rfl, rfl, rfl, _, rfl, by simp [drives]⟩

theorem undriven_resume (s : State) : Undriven s (resume s) := by
  unfold resume
  split <;> exact undriven_setState _ s

theorem SlotChange.undriven {s t : State} (h : SlotChange s t) : Undriven s t := by
  refine .of_linesView ?_
  cases h <;> rfl

theorem undriven_replyTo (cur : Option Nat) (expected : SockState) (f : Socket → Socket) (s : State) :
    Undriven s (replyTo cur expected f s) := by
  refine .of_linesView ?_
  unfold replyTo
  split
  · rfl
  · split
    · rfl
    · split <;> rfl

theorem undriven_replyServer (opcode : Opcode) (cur : Option Nat) (s : State) :
    Undriven s (replyServer opcode cur s) := by
  have hif (c : Prop) [Decidable c] (expected : SockState) (f : Socket → Socket) (u : State) :
      Undriven u (if c then replyTo cur expected f u else u) := by
    split
    · exact undriven_replyTo _ _ _ u
    · exact .refl u
  exact ((hif _ _ _ s).trans (hif _ _ _ _)).trans (hif _ _ _ _)

theorem undriven_replySelect (args : List Byte) (s : State) : Undriven s (replySelect args s) := by
  refine .of_linesView ?_
  unfold replySelect
  dsimp only
  split <;> rfl

theorem undriven_sockReply (opcode : Opcode) (args : List Byte) (cur : Option Nat) (s : State) :
    Undriven s (sockReply opcode args cur s) := by
  unfold sockReply
  split_ifs
  · exact (slotChange_replyCreate args cur s).undriven
  · exact (slotChange_replyConnect args cur s).undriven
  · exact (slotChange_replyClose cur s).undriven
  · exact undriven_replySelect args s
  · exact undriven_setState _ s
  · exact undriven_replyServer opcode cur s

theorem undriven_onDhcp (args : List Byte) (s : State) : Undriven s (onDhcp args s) := by
  refine .of_linesView ?_
  unfold onDhcp
  split <;> rfl

theorem undriven_onBufferSize (args : List Byte) (s : State) : Undriven s (onBufferSize args s) := by
  refine .of_linesView ?_
  unfold onBufferSize
  split <;> rfl

theorem undriven_clearPending (s : State) : Undriven s (clearPending s) :=
  ⟨rfl, rfl, rfl, _, rfl, by simp [drives]⟩

theorem undriven_dispatchUnsolicited (opcode : Opcode) (args : List Byte) (s : State) :
    Undriven s (dispatchUnsolicited opcode args s).1 := by
  have hcount : Undriven s (countUnsolicited s) := .of_linesView rfl
  unfold dispatchUnsolicited
  dsimp only
  split_ifs
  · exact (hcount.trans (undriven_onDhcp args _)).trans (undriven_resume _)
  · exact (hcount.trans (slotChange_onCloseWait args _).undriven).trans (undriven_resume _)
  · exact hcount.trans (undriven_resume _)

theorem undriven_dispatchDataWith (dopcode : Byte) (dargs data : List Byte) (m : Nat) (s : State) :
    Undriven s (dispatchDataWith dopcode dargs data m s).1 :=
  ((slotChange_sockData dargs m s).undriven.trans (undriven_emit rfl _)).trans (undriven_resume _)

/-- A command issued or refused: the lines are driven, but no transaction asked for (R121). -/
theorem withholds_issueCommand (opcode : Opcode) (args : List Byte) (s : State) :
    Withholds requests s (issueCommand opcode args s).1 := by
  have hc := issueCommand_cases opcode args s
  generalize issueCommand opcode args s = r at hc
  cases hc with
  | busy | tooLong => exact (Undriven.refl s).requestsNothing
  | deferred => exact ⟨rfl, rfl, _, rfl, by simp [requests]⟩
  | unframed => exact ⟨rfl, rfl, [.intEn false, .irqLevel s.env.level], by simp, by simp [requests]⟩
  | issued => exact ⟨rfl, rfl, _, rfl, by simp [requests]⟩

/-- The status-get reply drives lines only when it says "disconnected" (R169). -/
theorem onStatusGet_drives (args : List Byte) (s : State) :
    Undriven s (onStatusGet args s) ∨
      exStatus s.cfg.codec args = some s.cfg.wlanDisconnected ∧ Withholds requests s (onStatusGet args s) := by
  unfold onStatusGet
  cases hv : exStatus s.cfg.codec args with
  | none => exact .inl (.refl s)
  | some v =>
    have hrecord : Undriven s (recordWlanStatus v s) := .of_linesView rfl
    dsimp only
    rw [recordWlanStatus_cfg]
    split
    · next hdisconnected =>
      exact .inr ⟨by rw [hdisconnected], hrecord.requestsNothing.trans (withholds_issueCommand _ _ _)⟩
    · exact .inl hrecord

/-- Of the replies to the pending command only the status-get's may drive a line. -/
theorem dispatchMatchingReply_drives (opcode : Opcode) (args : List Byte) (s : State) :
    Undriven s (dispatchMatchingReply opcode args s).1 ∨
      (opcode = s.cfg.opcStatusGet ∧ exStatus s.cfg.codec args = some s.cfg.wlanDisconnected) ∧
        Withholds requests s (dispatchMatchingReply opcode args s).1 := by
  have hclear := undriven_clearPending s
  unfold dispatchMatchingReply
  dsimp only
  split_ifs with _ hstat
  · exact .inl (hclear.trans (undriven_onBufferSize args _))
  · rcases onStatusGet_drives args (clearPending s) with hquiet | ⟨hdisconnected, hissue⟩
    · exact .inl (hclear.trans hquiet)
    · exact .inr ⟨⟨hstat, hdisconnected⟩, hclear.requestsNothing.trans hissue⟩
  · exact .inl (hclear.trans (undriven_sockReply opcode args _ _))
  · exact .inl hclear
  · exact .inl hclear

/-- The pending status-get's reply, and that it says "disconnected": the one event after which lines are driven. -/
def SaysDisconnected (opcode : Opcode) (args : List Byte) (s : State) : Prop :=
  (s.drv.pendingCommand = some opcode ∧ opcode = s.cfg.opcStatusGet) ∧
    exStatus s.cfg.codec args = some s.cfg.wlanDisconnected

theorem dispatchEventWith_drives (opcode : Opcode) (args : List Byte) (n : Nat) (s : State) :
    Undriven s (dispatchEventWith opcode args n s).1 ∨
      SaysDisconnected opcode args s ∧ Withholds requests s (dispatchEventWith opcode args n s).1 := by
  have hreport : Undriven s (reportEvent opcode args n s) :=
    ⟨rfl, rfl, rfl, [.obsEvent opcode args n], rfl, by simp [drives]⟩
  rcases Nat.lt_or_ge opcode.toNat unsolThreshold.toNat with hlow | hhigh
  · by_cases hp : s.drv.pendingCommand = some opcode
    · rw [dispatchEventWith_matching hlow hp]
      rcases dispatchMatchingReply_drives opcode args (reportEvent opcode args n s) with
        hquiet | ⟨⟨hstat, hdisconnected⟩, hissue⟩
      · exact .inl (hreport.trans hquiet)
      · exact .inr ⟨⟨⟨hp, hstat⟩, hdisconnected⟩, hreport.requestsNothing.trans hissue⟩
    · rw [dispatchEventWith_unexpected hlow hp]
      exact .inl (hreport.trans (undriven_resume _))
  · rw [dispatchEventWith_unsolicited hhigh]
    exact .inl (hreport.trans (undriven_dispatchUnsolicited opcode args _))

/-- Everything a dispatch can do to the buffers and the lines: nothing, unless the packet is the reply that says
"disconnected"; then no transaction is asked for all the same. -/
theorem dispatch_drives (s : State) :
    Undriven s (dispatch s).1 ∨
      (∃ h, (receivedLength s ≠ 0 ∧ memRead s.rx spiHdrLen = s.cfg.tagEvent) ∧ parseEventHeader s = some h ∧
        SaysDisconnected h.opcode h.args s) ∧ Withholds requests s (dispatch s).1 := by
  unfold dispatch
  split_ifs with hlen _ hevent
  · exact .inl (undriven_resume s)
  · cases hparse : parseDataHeader s with
    | none =>
      rw [dispatchData_malformed hparse]
      exact .inl (undriven_resume s)
    | some h =>
      rw [dispatchData_parsed hparse]
      exact .inl (undriven_dispatchDataWith _ _ _ _ s)
  · cases hparse : parseEventHeader s with
    | none =>
      rw [dispatchEvent_malformed hparse]
      exact .inl (undriven_resume s)
    | some h =>
      rw [dispatchEvent_parsed hparse]
      exact (dispatchEventWith_drives h.opcode h.args h.args.length s).imp_right
        fun ⟨hsays, hissue⟩ => ⟨⟨h, ⟨hlen, hevent⟩, rfl, hsays⟩, hissue⟩
  · exact .inl (undriven_resume s)

/-- The pending status-get's reply in RX decodes to that reply's row (R88, R89). -/
theorem decodeRxPacket_statusGet {s : State} (hp : s.cfg.Sound) {h : EventHeader} (hlen : receivedLength s ≠ 0)
    (htag : memRead s.rx spiHdrLen = s.cfg.tagEvent) (hparse : parseEventHeader s = some h)
    (hopcode : h.opcode = s.cfg.opcStatusGet) (hpending : s.drv.pendingCommand = some h.opcode) :
    decodeRxPacket s.cfg s.drv.pendingCommand (receivedPayload s) = .instr (.replyStatusGet h.args) := by
  obtain ⟨rest, hpayload⟩ := receivedPayload_of_tag (Nat.lt_of_lt_of_le (by decide) hp.bufLow) hlen
  rw [htag] at hpayload
  rw [parseEventHeader, hpayload] at hparse
  have hlow : s.cfg.opcStatusGet.ult unsolThreshold = true := hp.solicited .statusGet
  have hname : nameOf s.cfg s.cfg.opcStatusGet = some .statusGet := hp.nameOf_opcodeOf .statusGet
  rw [hpayload, decodeRxPacket_event hp _ hparse, hpending, hopcode, decodeEvent, if_pos hlow, if_pos rfl, hname]
  rfl

end Sys2Proof.Machine

namespace Sys2Proof.DispatcherRules

open Sys2Proof.Machine Sys2Proof.Spec

/-- Settles O19: only the reply that says "disconnected" drives a line, and that packet decodes to the status-get
reply's row. -/
theorem whatDispatchNeverDoes : Obligations.WhatDispatchNeverDoes := by
  rintro s _ ⟨⟩
  have hdrives := dispatch_drives s
  have hwithholds : Withholds requests s (dispatch s).1 :=
    hdrives.elim Undriven.requestsNothing And.right
  refine ⟨hwithholds.rx, hwithholds.interruptPending, ?_⟩
  rcases hdrives with hquiet | ⟨⟨h, ⟨hlen, htag⟩, hparse, ⟨hpending, hopcode⟩, hdisconnected⟩, -⟩
  · obtain ⟨new, hnew, hnone⟩ := hquiet.withholds.effects
    exact ⟨new, hnew, fun e he kind n v => ne_of_not_requests (not_requests_of_not_drives (hnone e he)) kind n v,
      fun _ _ => ⟨hquiet.tx, hnone⟩⟩
  · obtain ⟨new, hnew, hnone⟩ := hwithholds.effects
    refine ⟨new, hnew, fun e he kind n v => ne_of_not_requests (hnone e he) kind n v, fun hwf hother => ?_⟩
    rw [rxLength_eq_receivedLength] at hother
    exact absurd hdisconnected
      (hother h.args (decodeRxPacket_statusGet (Params.sound hwf) hlen htag hparse hopcode hpending))

/-- Settles O44: DISPATCH makes the row's own case distinction, and `dispatch_state_ne` says where it ends. -/
theorem dispatchSelectsByTag : Obligations.DispatchSelectsByTag := by
  intro s row
  have hrow : exec row s = finishDispatch (dispatch s) := by
    unfold dispatch
    rw [← rxLength_eq_receivedLength]
    dsimp only [row, spiHdrLen]
    split_ifs <;> rfl
  exact ⟨_, _, hrow, rfl, dispatch_state_ne s, rfl⟩

/-- Settles O46: the row is the branch for the fields it holds; a header that parses holds as many bytes as it says. -/
theorem dataPacketsAreCountedAndReported : Obligations.DataPacketsAreCountedAndReported := by
  refine ⟨fun dopcode dargs data s => ⟨_, rfl, finishDispatch_resume _ _⟩,
    fun s => ⟨parseDataHeader s, _, rfl, rfl, ?_⟩⟩
  cases hparse : parseDataHeader s with
  | none => exact (congrArg finishDispatch (dispatchData_malformed hparse)).symm
  | some d => exact (congrArg finishDispatch (dispatchData_parsed hparse)).symm

/-- Settles O47: every event row is `dispatchEventWith`, which splits by the opcode. -/
theorem eventsAreCountedThenSplit : Obligations.EventsAreCountedThenSplit := by
  refine ⟨fun i opcode args s hrow => ?split, fun s => ⟨parseEventHeader s, _, rfl, rfl, ?parsed⟩⟩
  case split =>
    have hexec := exec_eventRow hrow
    refine ⟨fun hhigh => ⟨_, rfl, ?_⟩, fun hlow hp => ⟨_, rfl, ?_⟩, fun hlow hp => ?_⟩
    · exact hexec.trans (congrArg finishDispatch (dispatchEventWith_unsolicited hhigh args _ s))
    · exact hexec.trans (congrArg finishDispatch (dispatchEventWith_matching hlow hp args _))
    · rw [hexec, dispatchEventWith_unexpected hlow hp]
      exact finishDispatch_resume _ _
  case parsed =>
    cases hparse : parseEventHeader s with
    | none => exact (congrArg finishDispatch (dispatchEvent_malformed hparse)).symm
    | some e => exact (congrArg finishDispatch (dispatchEvent_parsed hparse)).symm

/-- Settles O49: the opcodes of R7 are all different, so each reply comes to its own rule. -/
theorem matchingRepliesClearThenAct : Obligations.MatchingRepliesClearThenAct := by
  intro opcode args s hwf
  refine ⟨fun hsocket => ?_, fun hplain => ?_, fun hunnamed => ?_⟩
  · refine ⟨_, exec_replyRow opcode args _ (replyCleared s), ?_⟩
    exact congrArg finishDispatch (dispatchMatchingReply_socket hwf ((isSocketOpcode_iff _ _).2 hsocket) args)
  · exact congrArg finishDispatch (dispatchMatchingReply_plain hwf hplain args)
  · exact congrArg finishDispatch (dispatchMatchingReply_unnamed hunnamed args)

/-- Settles O50: the two replies' own rules, by what their arguments hold; the connect is ISSUE_COMMAND in the state
with the status recorded. -/
theorem bufferSizeAndStatusReplies : Obligations.BufferSizeAndStatusReplies := by
  intro args s hwf c
  refine ⟨?buffers, onStatusGet args c, congrArg finishDispatch (dispatchMatchingReply_statusGet hwf args), ?status⟩
  case buffers =>
    refine (congrArg finishDispatch (dispatchMatchingReply_bufferSize args s)).trans ?_
    have hcodec : (clearPending s).cfg = s.cfg := rfl
    rw [onBufferSize, hcodec]
    cases exBuffers s.cfg.codec args <;> rfl
  case status =>
    have hcfg : c.cfg = s.cfg := rfl
    rw [onStatusGet, hcfg]
    cases exStatus s.cfg.codec args with
    | none => rfl
    | some v =>
      dsimp only
      rw [recordWlanStatus_cfg, hcfg]
      split
      · exact ⟨_, issue_issueCommand (s := recordWlanStatus v c) _ _ hwf⟩
      · rfl

/-- Settles O45: all three only resume. -/
theorem resumeAndRefusedPackets : Obligations.ResumeAndRefusedPackets := by
  refine ⟨fun s => congrArg (done .nothing) (resume_eq_resumed s), fun tag s => ?_, fun payload s => ?_⟩ <;>
    exact finishDispatch_resume .invalid s

/-- Settles O48: each event resumes after its own rule. -/
theorem unsolicitedEvents : Obligations.UnsolicitedEvents := by
  intro opcode args s u
  refine ⟨fun hdhcp => ?dhcp, fun hdhcp hclose => ⟨onCloseWait args u, ?closeWait, ?marked⟩,
    fun hdhcp hclose => ?other⟩
  case dhcp =>
    refine (congrArg finishDispatch (dispatchUnsolicited_dhcp hdhcp args)).trans ?_
    rw [finishDispatch_resume, onDhcp, countUnsolicited_cfg]
    cases exIpConfig s.cfg.codec args <;> rfl
  case closeWait =>
    exact (congrArg finishDispatch (dispatchUnsolicited_closeWait hdhcp hclose args)).trans (finishDispatch_resume _ _)
  case marked =>
    have hcfg : u.cfg = s.cfg := rfl
    rw [onCloseWait, hcfg]
    cases exDesc s.cfg.codec args <;> rfl
  case other =>
    exact (congrArg finishDispatch (dispatchUnsolicited_other hdhcp hclose args)).trans (finishDispatch_resume _ _)

end Sys2Proof.DispatcherRules

/-! The socket table and the socket manager: lookup, the commands issued for a slot, the poll step and its select, the
replies and routed events, the application's operations (R190 to R212), and that these change a socket's state along the
table of its transitions only (R213). -/

namespace Sys2Proof.Machine

open Sys2Proof.Spec

/-! ### A slot in use (R190, R193) -/

/-- A change of the context of a slot in use, in the statements' words. -/
theorem updateSocket_eq_withSlot {i : Nat} {k : Socket} {s : State} (hk : s.sm.table[i]? = some k)
    (f : Socket → Socket) : updateSocket i f s = withSlot i (f k) s := updateSocket_eq i f s k hk

theorem sockIssue_status (i : Nat) (opcode : Opcode) (args : List Byte) (s : State) :
    (sockIssue i opcode args s).2 = (issueCommand opcode args s).2 := by
  rw [sockIssue_eq]
  cases (issueCommand opcode args s).2 <;> rfl

/-- `sock_issue` is the issue that leaves the slot's context as it is. -/
theorem issueThen_id (i : Nat) (opcode : Opcode) (args : List Byte) (s : State) :
    issueThen i opcode args id s = (sockIssue i opcode args s).1 := by
  have hid (t : State) : updateSocket i id t = t := by rw [updateSocket, List.modify_id]
  unfold issueThen
  rcases sockIssue i opcode args s with ⟨t, _ | e⟩
  · exact hid t
  · rfl

/-- A command issued for a slot in use, in the statements' words (R193). -/
theorem issueFor_issueThen {i : Nat} {k : Socket} {s : State} (hk : s.sm.table[i]? = some k) (hwf : s.cfg.wf = true)
    (opcode : Opcode) (args : List Byte) (f : Socket → Socket) :
    IssueFor i (f k) opcode args s (issueThen i opcode args f s) (sockIssue i opcode args s).2 := by
  rw [sockIssue_status, issueThen_eq]
  refine ⟨_, issue_issueCommand opcode args hwf, ?_⟩
  have hslot : (setCurrent (some (slotIndex i)) (issueCommand opcode args s).1).sm.table[i]? = some k := by
    rw [setCurrent_sm, issueCommand_sm]
    exact hk
  cases (issueCommand opcode args s).2 with
  | ok => exact updateSocket_eq i f _ k hslot
  | err e => rfl

/-- A rule that issues a command for a slot in use, run by itself (R195, R196, R198, R199). -/
theorem onSlot_issueThen {i : Nat} {k l : Socket} {s : State} (hk : s.sm.table[i]? = some k) (hwf : s.cfg.wf = true)
    {rule : Socket → State → State} {opcode : Opcode} {args : List Byte} {f : Socket → Socket}
    (hrule : rule k s = issueThen i opcode args f s) (hl : f k = l) :
    ∃ t r, IssueFor i l opcode args s t r ∧ onSlot i rule s = .next { t with result := .nothing } := by
  subst hl
  refine ⟨_, _, issueFor_issueThen hk hwf opcode args f, ?_⟩
  rw [onSlot_inUse i rule s k hk, hrule]
  rfl

/-! ### The poll step (R194 to R200) -/

/-- SM_POLL's turn of a slot in use is the row of the socket's state, run by itself (R194). -/
theorem exec_slotRow {i : Nat} {k : Socket} {s : State} (hk : s.sm.table[i]? = some k) (dt : Word32) :
    exec (slotRow dt i k.state) s = done .nothing (smSlot dt i s) := by
  have hat : socketAt s i = some k := hk
  unfold smSlot
  rw [hat]
  dsimp only
  cases k.state with
  | init | created | failed | ready | closeWait => exact onSlot_inUse i _ s k hk
  | _ => rfl

/-- The states SM_POLL goes through: after the turns of the slots below `n`, each run by itself (R194). -/
def turns (dt : Word32) (s : State) : Nat → State
  | 0 => s
  | n + 1 => finish .nothing (smSlot dt n (turns dt s n))

/-- The turns run one by one come to where SM_POLL's do, but for what an operation returns. -/
theorem turns_eq (dt : Word32) (s : State) (n : Nat) :
    ∃ r, turns dt s n = finish r ((List.range n).foldl (fun t i => smSlot dt i t) s) := by
  induction n with
  | zero => exact ⟨s.result, rfl⟩
  | succ n ih =>
    obtain ⟨r, hr⟩ := ih
    refine ⟨.nothing, ?_⟩
    rw [List.range_succ, List.foldl_append, turns, hr, ignoresResult_smSlot]
    rfl

/-- SM_POLL is the turns of the slots in use, then the select (R194). -/
theorem done_smSelect_turns (dt : Word32) (s : State) :
    done .nothing (smSelect (turns dt s s.sm.count)) = done .nothing (smPoll dt s) := by
  obtain ⟨r, hr⟩ := turns_eq dt s s.sm.count
  rw [hr]
  exact ignoresResult_smSelect.done r .nothing _

theorem moves_turns (dt : Word32) (s : State) (n : Nat) : Moves s (turns dt s n) := by
  induction n with
  | zero => exact .refl s
  | succ n ih => exact (ih.trans (moves_smSlot dt n _)).trans (moves_finish _ _)

/-! ### The select (R201, R205) -/

/-- A bit of the select mask, by the descriptor as a signed number (R201, D39). -/
theorem selectable_and_toNat_iff (d : Word32) {b : Nat} (hb : b < 32) :
    selectable d = true ∧ d.toNat = b ↔ 0 ≤ d.toInt ∧ d.toInt = b := by
  have hlt := d.isLt
  rw [selectable_iff, BitVec.toInt_eq_toNat_cond]
  split <;> omega

theorem smSelect_not_tried {s : State}
    (h : ¬(s.sm.selectPending = false ∧ driverFree s = true ∧ selectMask s.sm.table ≠ 0)) : smSelect s = s := by
  rw [smSelect_eq, if_neg h]

/-- The select issued: outstanding exactly when it was accepted (R201). -/
theorem smSelect_issued {s t : State} {r : Status}
    (h : s.sm.selectPending = false ∧ driverFree s = true ∧ selectMask s.sm.table ≠ 0)
    (hissue : issueCommand s.cfg.opcSelect (argsSelect s.cfg.codec (selectMask s.sm.table)) s = (t, r)) :
    smSelect s = { t with sm := { s.sm with selectPending := decide (r = .ok) } } := by
  have hsm := issueCommand_sm s.cfg.opcSelect (argsSelect s.cfg.codec (selectMask s.sm.table)) s
  rw [hissue] at hsm
  rw [smSelect_eq, if_pos h, hissue, ← hsm]
  cases r with
  | ok => rfl
  | err e =>
    have hkept : { t.sm with selectPending := false } = t.sm :=
      congrArg (fun v => { t.sm with selectPending := v }) (hsm ▸ h.1.symm)
    exact congrArg (fun m => { t with sm := m }) hkept.symm

/-- The rule of R205 for one socket, by the descriptor as a signed number. -/
theorem markReadable_eq (mask : Word32) (k : Socket) :
    markReadable mask k = if k.state = .ready ∧ 0 ≤ k.descriptor.toInt ∧ k.descriptor.toInt ≤ 31 ∧
      mask.getLsbD k.descriptor.toInt.toNat = true then { k with readable := true } else k := by
  unfold markReadable
  refine if_congr (and_congr_right fun _ => ?_) rfl rfl
  rw [← and_assoc]
  constructor
  · rintro ⟨hsel, hbit⟩
    have hint := toInt_of_selectable hsel
    rw [selectable_iff] at hsel
    refine ⟨by omega, ?_⟩
    rw [hint]
    exact hbit
  · rintro ⟨hrange, hbit⟩
    have hsel : selectable k.descriptor = true := by
      simp only [selectable, Bool.and_eq_true, decide_eq_true_eq]
      exact hrange
    refine ⟨hsel, ?_⟩
    rwa [toInt_of_selectable hsel] at hbit

/-! ### Replies (R202 to R207) -/

theorem replied_replyTo (cur : Option Nat) (expected : SockState) (f : Socket → Socket) (s : State) :
    Replied cur expected f s (replyTo cur expected f s) := replyTo_eq cur expected f s

theorem replied_replyConnect {args : List Byte} {s : State} {v : Word32} (h : exResult s.cfg.codec args = some v)
    (cur : Option Nat) :
    Replied cur .connecting (fun k => if v = 0 then { k with state := .ready }
      else { k with state := .failed, retryTimeout := s.cfg.connectRetryTimeout }) s (replyConnect args cur s) := by
  unfold replyConnect
  rw [h]
  dsimp only
  split <;> exact replied_replyTo _ _ _ s

/-- The replies of the optional branch: with parameters that meet R7 their opcodes are three (R207). -/
theorem replied_replyServer {s : State} (hwf : s.cfg.wf = true) (opcode : Opcode) (cur : Option Nat) :
    (opcode = s.cfg.opcBind →
      Replied cur .binding (fun k => { k with state := .bound }) s (replyServer opcode cur s)) ∧
    (opcode = s.cfg.opcListen →
      Replied cur .listening (fun k => { k with state := .accepting }) s (replyServer opcode cur s)) ∧
    (opcode = s.cfg.opcAccept →
      Replied cur .accepting (fun k => { k with state := .ready }) s (replyServer opcode cur s)) ∧
    (opcode ≠ s.cfg.opcBind → opcode ≠ s.cfg.opcListen → opcode ≠ s.cfg.opcAccept →
      replyServer opcode cur s = s) := by
  have hlb : s.cfg.opcListen ≠ s.cfg.opcBind := opcodeOf_ne hwf (a := .listen) (b := .bind) (by decide)
  have hab : s.cfg.opcAccept ≠ s.cfg.opcBind := opcodeOf_ne hwf (a := .accept) (b := .bind) (by decide)
  have hal : s.cfg.opcAccept ≠ s.cfg.opcListen := opcodeOf_ne hwf (a := .accept) (b := .listen) (by decide)
  rw [replyServer_eq opcode cur s ⟨hlb.symm, hab.symm, hal.symm⟩]
  refine ⟨fun hbind => ?_, fun hlisten => ?_, fun haccept => ?_, fun hbind hlisten haccept => ?_⟩
  · rw [if_pos hbind]
    exact replied_replyTo _ _ _ s
  · rw [if_neg (hlisten ▸ hlb), if_pos hlisten]
    exact replied_replyTo _ _ _ s
  · rw [if_neg (haccept ▸ hab), if_neg (haccept ▸ hal), if_pos haccept]
    exact replied_replyTo _ _ _ s
  · rw [if_neg hbind, if_neg hlisten, if_neg haccept]

/-! ### Events and data (R208, R209) -/

theorem sockCloseWait_found {d : Word32} {i : Nat} {k : Socket} {s : State} (h : Lowest s d i)
    (hk : s.sm.table[i]? = some k) : sockCloseWait d s = withSlot i { k with state := .closeWait } s := by
  have hfound : sockLookup d s = some i := (sockLookup_some d s i).2 h
  unfold sockCloseWait
  rw [hfound]
  exact updateSocket_eq_withSlot hk _

theorem sockCloseWait_missed {d : Word32} {s : State} (h : ∀ i, ¬Found s d i) : sockCloseWait d s = s := by
  have hmissed : sockLookup d s = none := (sockLookup_none d s).2 h
  unfold sockCloseWait
  rw [hmissed]

theorem sockData_found {dargs : List Byte} {d : Word32} {i : Nat} {k : Socket} {s : State}
    (hd : dataDesc s.cfg.codec dargs = some d) (h : Lowest s d i) (hk : s.sm.table[i]? = some k) (m : Nat) :
    sockData dargs m s = withSlot i { k with rxCount := k.rxCount + 1, rxBytes := k.rxBytes + m } s := by
  have hfound : sockLookup d s = some i := (sockLookup_some d s i).2 h
  unfold sockData
  simp only [hd, hfound]
  exact updateSocket_eq_withSlot hk _

theorem sockData_missed {dargs : List Byte} {d : Word32} {s : State} (hd : dataDesc s.cfg.codec dargs = some d)
    (h : ∀ i, ¬Found s d i) (m : Nat) : sockData dargs m s = s := by
  have hmissed : sockLookup d s = none := (sockLookup_none d s).2 h
  unfold sockData
  simp only [hd, hmissed]

/-! ### The application's operations (R210 to R212) -/

/-- An operation that issues a command for a slot, then raises the refusal or changes the slot's context. -/
theorem eq_issueThen_of_sockIssue {s o : State} {i : Nat} {opcode : Opcode} {args : List Byte} {f : Socket → Socket}
    (hok : ∀ t, sockIssue i opcode args s = (t, .ok) → o = finish .ok (updateSocket i f t))
    (herr : ∀ t e, sockIssue i opcode args s = (t, .err e) → o = raise e t) :
    o = finish (returned (sockIssue i opcode args s).2) (issueThen i opcode args f s) := by
  unfold issueThen
  rcases hr : sockIssue i opcode args s with ⟨t, _ | e⟩
  · exact hok t hr
  · exact herr t e hr

theorem sockClose_accepted {i : Nat} {k : Socket} {s : State} (hk : s.sm.table[i]? = some k)
    (h : k.state = .ready ∨ k.state = .closeWait) :
    sockClose i s = finish (returned (sockIssue i s.cfg.opcClose (argsClose s.cfg.codec k.descriptor) s).2)
      (issueThen i s.cfg.opcClose (argsClose s.cfg.codec k.descriptor) (fun l => { l with state := .closing }) s) := by
  have hat : socketAt s i = some k := hk
  unfold sockClose
  simp only [hat]
  rw [if_neg (by tauto)]
  refine eq_issueThen_of_sockIssue (fun t hr => ?_) fun t e hr => ?_ <;> rw [hr]
  rfl

theorem sockClose_refused {i : Nat} {k : Socket} {s : State} (hk : s.sm.table[i]? = some k)
    (h : ¬(k.state = .ready ∨ k.state = .closeWait)) : sockClose i s = raise .invalidState s := by
  have hat : socketAt s i = some k := hk
  unfold sockClose
  simp only [hat]
  exact if_pos (not_or.1 h)

theorem sockRecv_accepted {i : Nat} {k : Socket} {s : State} (hk : s.sm.table[i]? = some k) (h : k.state = .ready)
    (length : Nat) :
    sockRecv i length s =
      finish (returned (sockIssue i s.cfg.opcRecv (argsRecv s.cfg.codec k.descriptor length) s).2)
        (issueThen i s.cfg.opcRecv (argsRecv s.cfg.codec k.descriptor length)
          (fun l => { l with readable := false }) s) := by
  have hat : socketAt s i = some k := hk
  unfold sockRecv
  simp only [hat]
  rw [if_neg (not_not.2 h)]
  refine eq_issueThen_of_sockIssue (fun t hr => ?_) fun t e hr => ?_ <;> rw [hr]
  rfl

theorem sockRecv_refused {i : Nat} {k : Socket} {s : State} (hk : s.sm.table[i]? = some k) (h : k.state ≠ .ready)
    (length : Nat) : sockRecv i length s = raise .invalidState s := by
  have hat : socketAt s i = some k := hk
  unfold sockRecv
  simp only [hat]
  exact if_pos h

theorem sendTo_accepted {i : Nat} {k : Socket} {s : State} (hk : s.sm.table[i]? = some k) (h : k.state = .ready)
    (data address : List Byte) :
    sendTo i data address s = finishStatus
      (issueData s.cfg.dopcSendto (argsSendto s.cfg.codec k.descriptor data.length address) data s) := by
  have hat : socketAt s i = some k := hk
  unfold sendTo
  simp only [hat]
  exact if_neg (not_not.2 h)

theorem sendTo_refused {i : Nat} {k : Socket} {s : State} (hk : s.sm.table[i]? = some k) (h : k.state ≠ .ready)
    (data address : List Byte) : sendTo i data address s = raise .invalidState s := by
  have hat : socketAt s i = some k := hk
  unfold sendTo
  simp only [hat]
  exact if_pos h

/-- No operation on a socket finds a slot that is not in use (R210 to R212). -/
theorem exec_socketOperation_free {i : Instr} {n length : Nat} {data address : List Byte} {s : State}
    (hfree : s.sm.count ≤ n) (hi : i = .sockClose n ∨ i = .sockRecv n length ∨ i = .sendTo n data address) :
    exec i s = .next (raise .invalid s) := by
  have hat : socketAt s n = none := List.getElem?_eq_none hfree
  rcases hi with rfl | rfl | rfl
  · show Host.Outcome.next (sockClose n s) = _
    rw [sockClose, hat]
  · show Host.Outcome.next (sockRecv n length s) = _
    rw [sockRecv, hat]
  · show Host.Outcome.next (sendTo n data address s) = _
    rw [sendTo, hat]

/-! ### The table of a socket's transitions (R213) -/

/-- The socket's state stays, or changes along a pair of R213's table. -/
def SocketStep (k l : Socket) : Prop := l.state = k.state ∨ sockTransition k.state l.state = true

theorem socketStep_of_transition {k l : Socket} {a b : SockState} (hk : k.state = a) (hl : l.state = b)
    (h : sockTransition a b = true) : SocketStep k l := .inr (by rw [hk, hl, h])

/-- Close-wait is entered from every state in which the descriptor is meaningful (R208). -/
theorem sockTransition_closeWait {a : SockState} (hinit : a ≠ .init) (hcreating : a ≠ .creating) :
    sockTransition a .closeWait = true := by
  cases a with
  | init => exact absurd rfl hinit
  | creating => exact absurd rfl hcreating
  | _ => rfl

/-- Every socket of the table `a` that is in the table `b` has taken at most one step. -/
def TableSteps (a b : List Socket) : Prop :=
  ∀ (n : Nat) (k l : Socket), a[n]? = some k → b[n]? = some l → SocketStep k l

theorem TableSteps.of_eq {a b : List Socket} (h : b = a) : TableSteps a b := by
  intro n k l hk hl
  rw [h, hk] at hl
  cases hl
  exact .inl rfl

theorem tableSteps_append (a l : List Socket) : TableSteps a (a ++ l) := by
  intro n k m hk hm
  rw [List.getElem?_append_left (List.getElem?_eq_some_iff.1 hk).1] at hm
  exact TableSteps.of_eq rfl n k m hk hm

/-- At most the context of slot `i` changes, by one step: what one turn of the slot does to the table. -/
inductive SlotSteps (i : Nat) (a : List Socket) : List Socket → Prop
  | none : SlotSteps i a a
  | set {k l : Socket} (hk : a[i]? = some k) (h : SocketStep k l) : SlotSteps i a (a.set i l)

theorem SlotSteps.getElem?_of_ne {i n : Nat} {a b : List Socket} (h : SlotSteps i a b) (hne : n ≠ i) :
    b[n]? = a[n]? := by
  cases h with
  | none => rfl
  | set _ _ => exact List.getElem?_set_ne hne.symm

theorem SlotSteps.tableSteps {i : Nat} {a b : List Socket} (h : SlotSteps i a b) : TableSteps a b := by
  cases h with
  | none => exact .of_eq rfl
  | @set k l hk hstep =>
    intro n m o hm ho
    rw [List.getElem?_set] at ho
    split at ho
    · next hi =>
      subst hi
      rw [if_pos (List.getElem?_eq_some_iff.1 hk).1] at ho
      cases hk.symm.trans hm
      cases ho
      exact hstep
    · exact TableSteps.of_eq rfl n m o hm ho

theorem slotSteps_updateSocket {i : Nat} {k : Socket} {s : State} (hk : s.sm.table[i]? = some k)
    {f : Socket → Socket} (h : SocketStep k (f k)) : SlotSteps i s.sm.table (updateSocket i f s).sm.table := by
  rw [updateSocket_eq_withSlot hk]
  exact .set hk h

/-- A command issued for a slot changes its socket's state by the step the rule names, or not at all. -/
theorem slotSteps_issueThen {i : Nat} {k : Socket} {s : State} (hk : s.sm.table[i]? = some k) (opcode : Opcode)
    (args : List Byte) {f : Socket → Socket} (h : SocketStep k (f k)) :
    SlotSteps i s.sm.table (issueThen i opcode args f s).sm.table := by
  have hsm := issueCommand_sm opcode args s
  rw [issueThen_eq, ← hsm]
  rw [← hsm] at hk
  cases (issueCommand opcode args s).2 with
  | err e => exact .none
  | ok => exact slotSteps_updateSocket (s := setCurrent _ _) hk h

/-- Each case of SM_POLL is a row of the table of transitions (R195 to R200). -/
theorem slotSteps_smSlot (dt : Word32) (i : Nat) (s : State) : SlotSteps i s.sm.table (smSlot dt i s).sm.table := by
  unfold smSlot
  cases hk : socketAt s i with
  | none => exact .none
  | some k =>
    dsimp only
    cases hs : k.state with
    | init => exact slotSteps_issueThen hk _ _ (socketStep_of_transition hs rfl rfl)
    | created =>
      dsimp only [smCreated]
      split
      · exact slotSteps_issueThen hk _ _ (socketStep_of_transition hs rfl rfl)
      · exact slotSteps_updateSocket hk (socketStep_of_transition hs rfl rfl)
    | failed =>
      dsimp only [smFailed]
      split
      · exact slotSteps_updateSocket hk (socketStep_of_transition hs rfl rfl)
      · exact slotSteps_updateSocket hk (.inl rfl)
    | ready =>
      dsimp only [smReady]
      split
      · exact slotSteps_issueThen hk _ _ (.inl rfl)
      · exact .none
    | closeWait => exact slotSteps_issueThen hk _ _ (socketStep_of_transition hs rfl rfl)
    | _ => exact .none

/-- A slot whose turn has not come is as it was. -/
theorem turns_untouched (dt : Word32) (s : State) {m n : Nat} (h : m ≤ n) :
    (turns dt s m).sm.table[n]? = s.sm.table[n]? := by
  induction m with
  | zero => rfl
  | succ m ih => exact ((slotSteps_smSlot dt m (turns dt s m)).getElem?_of_ne (by omega)).trans (ih (by omega))

/-- Each slot has one turn, so each socket takes at most one step (R194). -/
theorem tableSteps_turns (dt : Word32) (s : State) (m : Nat) :
    TableSteps s.sm.table (turns dt s m).sm.table := by
  induction m with
  | zero => exact .of_eq rfl
  | succ m ih =>
    intro n k l hk hl
    have hturn := slotSteps_smSlot dt m (turns dt s m)
    by_cases hn : n = m
    · rw [hn] at hk hl
      exact hturn.tableSteps m k l ((turns_untouched dt s (Nat.le_refl m)).trans hk) hl
    · exact ih n k l hk ((hturn.getElem?_of_ne hn).symm.trans hl)

theorem smSelect_table (s : State) : (smSelect s).sm.table = s.sm.table := by
  by_cases h : s.sm.selectPending = false ∧ driverFree s = true ∧ selectMask s.sm.table ≠ 0
  · rw [smSelect_issued h rfl]
  · rw [smSelect_not_tried h]

theorem tableSteps_smPoll (dt : Word32) (s : State) : TableSteps s.sm.table (smPoll dt s).sm.table := by
  have hpoll : smPoll dt s = { smSelect (turns dt s s.sm.count) with result := (smPoll dt s).result } := by
    have hfinish := Host.Outcome.next.inj (done_smSelect_turns dt s)
    exact (congrArg (finish (smPoll dt s).result) hfinish).symm
  rw [hpoll, smSelect_table]
  exact tableSteps_turns dt s _

/-! #### Replies, events and data -/

/-- A reply's change is a row of the table of transitions when the state it is expected in leads there. -/
theorem tableSteps_of_replied {cur : Option Nat} {expected : SockState} {new : Socket → Socket} {s t : State}
    (h : Replied cur expected new s t) (hnew : ∀ k, k.state = expected → SocketStep k (new k)) :
    TableSteps s.sm.table t.sm.table := by
  obtain ⟨hchange, hkeep⟩ := h
  by_cases hfound : ∃ i k, cur = some i ∧ s.sm.table[i]? = some k ∧ k.state = expected
  · obtain ⟨i, k, hcur, hk, hs⟩ := hfound
    rw [hchange i k hcur hk hs]
    exact (SlotSteps.set hk (hnew k hs)).tableSteps
  · rw [hkeep fun i k hcur hk hs => hfound ⟨i, k, hcur, hk, hs⟩]
    exact .of_eq rfl

theorem tableSteps_replyCreate (args : List Byte) (cur : Option Nat) (s : State) :
    TableSteps s.sm.table (replyCreate args cur s).sm.table := by
  unfold replyCreate
  cases exResult s.cfg.codec args with
  | none => exact .of_eq rfl
  | some v => exact tableSteps_of_replied (replied_replyTo _ _ _ s) fun k hk => socketStep_of_transition hk rfl rfl

theorem tableSteps_replyConnect (args : List Byte) (cur : Option Nat) (s : State) :
    TableSteps s.sm.table (replyConnect args cur s).sm.table := by
  cases h : exResult s.cfg.codec args with
  | none =>
    rw [replyConnect, h]
    exact .of_eq rfl
  | some v =>
    refine tableSteps_of_replied (replied_replyConnect h cur) fun k hk => ?_
    split <;> exact socketStep_of_transition hk rfl rfl

theorem tableSteps_replySelect (args : List Byte) (s : State) :
    TableSteps s.sm.table (replySelect args s).sm.table := by
  have hmark (mask : Word32) (k : Socket) : (markReadable mask k).state = k.state := by
    unfold markReadable
    split <;> rfl
  rw [replySelect, setSelectPending_cfg]
  cases exSelectRead s.cfg.codec args with
  | none => exact .of_eq rfl
  | some mask =>
    intro n k l hk hl
    have hmap : (s.sm.table.map (markReadable mask))[n]? = some (markReadable mask k) := by
      rw [List.getElem?_map, hk]
      rfl
    cases hmap.symm.trans hl
    exact .inl (hmark mask k)

theorem tableSteps_replyServer {s : State} (hwf : s.cfg.wf = true) (opcode : Opcode) (cur : Option Nat) :
    TableSteps s.sm.table (replyServer opcode cur s).sm.table := by
  obtain ⟨hbind, hlisten, haccept, hother⟩ := replied_replyServer hwf opcode cur
  by_cases hb : opcode = s.cfg.opcBind
  · exact tableSteps_of_replied (hbind hb) fun k hk => socketStep_of_transition hk rfl rfl
  · by_cases hl : opcode = s.cfg.opcListen
    · exact tableSteps_of_replied (hlisten hl) fun k hk => socketStep_of_transition hk rfl rfl
    · by_cases ha : opcode = s.cfg.opcAccept
      · exact tableSteps_of_replied (haccept ha) fun k hk => socketStep_of_transition hk rfl rfl
      · rw [hother hb hl ha]
        exact .of_eq rfl

theorem tableSteps_sockReply {s : State} (hwf : s.cfg.wf = true) (opcode : Opcode) (args : List Byte)
    (cur : Option Nat) : TableSteps s.sm.table (sockReply opcode args cur s).sm.table := by
  unfold sockReply
  split
  · exact tableSteps_replyCreate args cur s
  · split
    · exact tableSteps_replyConnect args cur s
    · split
      · exact tableSteps_of_replied (replied_replyTo _ _ _ s) fun k hk => socketStep_of_transition hk rfl rfl
      · split
        · exact tableSteps_replySelect args s
        · split
          · exact .of_eq rfl
          · exact tableSteps_replyServer hwf opcode cur

theorem tableSteps_sockCloseWait (d : Word32) (s : State) :
    TableSteps s.sm.table (sockCloseWait d s).sm.table := by
  unfold sockCloseWait
  cases h : sockLookup d s with
  | none => exact .of_eq rfl
  | some i =>
    obtain ⟨⟨k, hk, hinit, hcreating, -⟩, -⟩ := (sockLookup_some d s i).1 h
    exact (slotSteps_updateSocket hk (.inr (sockTransition_closeWait hinit hcreating))).tableSteps

theorem tableSteps_onCloseWait (args : List Byte) (s : State) :
    TableSteps s.sm.table (onCloseWait args s).sm.table := by
  unfold onCloseWait
  cases exDesc s.cfg.codec args with
  | none => exact .of_eq rfl
  | some d => exact tableSteps_sockCloseWait d s

theorem tableSteps_sockData (dargs : List Byte) (m : Nat) (s : State) :
    TableSteps s.sm.table (sockData dargs m s).sm.table := by
  unfold sockData
  cases dataDesc s.cfg.codec dargs with
  | none => exact .of_eq rfl
  | some d =>
    dsimp only
    cases h : sockLookup d s with
    | none => exact .of_eq rfl
    | some i =>
      obtain ⟨⟨k, hk, -⟩, -⟩ := (sockLookup_some d s i).1 h
      exact (slotSteps_updateSocket hk (.inl rfl)).tableSteps

/-! #### The dispatcher -/

theorem table_of_tableView {s t : State} (h : tableView t = tableView s) : t.sm.table = s.sm.table :=
  congrArg (fun v => v.2.1.table) h

theorem TableSteps.resume {a : List Socket} {s : State} (h : TableSteps a s.sm.table) :
    TableSteps a (resume s).sm.table := by
  rw [table_of_tableView (resume_tableView s)]
  exact h

theorem onStatusGet_table (args : List Byte) (s : State) : (onStatusGet args s).sm.table = s.sm.table := by
  unfold onStatusGet
  cases exStatus s.cfg.codec args with
  | none => rfl
  | some v =>
    dsimp only
    split
    · rw [issueCommand_sm]
      rfl
    · rfl

theorem onDhcp_table (args : List Byte) (s : State) : (onDhcp args s).sm.table = s.sm.table := by
  unfold onDhcp
  split <;> rfl

theorem tableSteps_dispatchMatchingReply {s : State} (hwf : s.cfg.wf = true) (opcode : Opcode) (args : List Byte) :
    TableSteps s.sm.table (dispatchMatchingReply opcode args s).1.sm.table := by
  unfold dispatchMatchingReply
  dsimp only
  split
  · exact .of_eq (table_of_tableView (s := clearPending s) (onBufferSize_views args _).2)
  · split
    · exact .of_eq (onStatusGet_table args (clearPending s))
    · split
      · exact tableSteps_sockReply (s := clearPending s) hwf opcode args _
      · split <;> exact .of_eq rfl

theorem tableSteps_dispatchUnsolicited (opcode : Opcode) (args : List Byte) (s : State) :
    TableSteps s.sm.table (dispatchUnsolicited opcode args s).1.sm.table := by
  unfold dispatchUnsolicited
  dsimp only
  split
  · exact (TableSteps.of_eq (onDhcp_table args (countUnsolicited s))).resume
  · split
    · exact (tableSteps_onCloseWait args (countUnsolicited s)).resume
    · exact (TableSteps.of_eq (b := (countUnsolicited s).sm.table) rfl).resume

theorem tableSteps_dispatchEventWith {s : State} (hwf : s.cfg.wf = true) (opcode : Opcode) (args : List Byte)
    (n : Nat) : TableSteps s.sm.table (dispatchEventWith opcode args n s).1.sm.table := by
  unfold dispatchEventWith
  dsimp only
  split
  · split
    · exact tableSteps_dispatchMatchingReply (s := reportEvent opcode args n s) hwf opcode args
    · exact (TableSteps.of_eq (b := (reportEvent opcode args n s).sm.table) rfl).resume
  · exact tableSteps_dispatchUnsolicited opcode args (reportEvent opcode args n s)

theorem tableSteps_dispatch {s : State} (hwf : s.cfg.wf = true) :
    TableSteps s.sm.table (dispatch s).1.sm.table := by
  have hinvalid : TableSteps s.sm.table (dispatchInvalid s).1.sm.table := (TableSteps.of_eq rfl).resume
  unfold dispatch
  split
  · exact hinvalid
  · split
    · unfold dispatchData
      split
      · exact hinvalid
      · exact TableSteps.resume (s := emit _ (sockData _ _ s)) (tableSteps_sockData _ _ s)
    · split
      · unfold dispatchEvent
        split
        · exact hinvalid
        · exact tableSteps_dispatchEventWith hwf _ _ _
      · exact hinvalid

theorem tableSteps_pollDispatch {s : State} (hwf : s.cfg.wf = true) :
    TableSteps s.sm.table (pollDispatch s).sm.table := by
  unfold pollDispatch
  split
  · exact tableSteps_dispatch hwf
  · exact .of_eq rfl

theorem tableSteps_pollSocketManager (dt : Word32) (s : State) :
    TableSteps s.sm.table (pollSocketManager dt s).sm.table := by
  unfold pollSocketManager
  split
  · exact tableSteps_smPoll dt s
  · exact .of_eq rfl

/-! #### The agents' operations -/

theorem tableSteps_sockAdd (family type protocol : Word32) (address : List Byte) (s : State) :
    TableSteps s.sm.table (sockAdd family type protocol address s).sm.table := by
  unfold sockAdd
  split
  · exact .of_eq rfl
  · exact tableSteps_append _ _

theorem tableSteps_sockClose (i : Nat) (s : State) : TableSteps s.sm.table (sockClose i s).sm.table := by
  cases hk : socketAt s i with
  | none =>
    rw [sockClose, hk]
    exact .of_eq rfl
  | some k =>
    by_cases h : k.state = .ready ∨ k.state = .closeWait
    · have hstep : SocketStep k { k with state := .closing } := by
        rcases h with h | h <;> exact socketStep_of_transition h rfl rfl
      rw [sockClose_accepted hk h]
      exact (slotSteps_issueThen hk _ _ hstep).tableSteps
    · rw [sockClose_refused hk h]
      exact .of_eq rfl

theorem tableSteps_sockRecv (i length : Nat) (s : State) : TableSteps s.sm.table (sockRecv i length s).sm.table := by
  cases hk : socketAt s i with
  | none =>
    rw [sockRecv, hk]
    exact .of_eq rfl
  | some k =>
    by_cases h : k.state = .ready
    · rw [sockRecv_accepted hk h]
      exact (slotSteps_issueThen hk _ _ (.inl rfl)).tableSteps
    · rw [sockRecv_refused hk h]
      exact .of_eq rfl

theorem finishStatus_table (r : State × Status) : (finishStatus r).sm.table = r.1.sm.table :=
  table_of_tableView (finishStatus_views r).2

theorem issueData_table (dopcode : Byte) (args data : List Byte) (s : State) :
    (finishStatus (issueData dopcode args data s)).sm.table = s.sm.table :=
  (finishStatus_table _).trans (table_of_tableView (issueData_tableView dopcode args data s))

theorem startWith_table {args : List Byte} {s : State} (hwf : s.cfg.wf = true) (ha : args.length ≤ 255) :
    (startWith args s).sm.table = s.sm.table := by
  rcases startWith_cases args s hwf ha with heq | heq | ⟨-, tx, sent, heq⟩ <;> rw [heq] <;> rfl

theorem wlanConnectWith_table (args : List Byte) (s : State) :
    (wlanConnectWith args s).1.sm.table = s.sm.table := by
  unfold wlanConnectWith
  split
  · rfl
  · rw [issueCommand_sm]

/-- Every agent's operation but POLL, which dispatches and then polls the sockets. -/
theorem tableSteps_agent {i : Instr} {s t : State} (hwf : s.cfg.wf = true) (hi : byAgent i = true)
    (hpoll : ∀ dt, i ≠ .poll dt) (hexec : exec i s = .next t) : TableSteps s.sm.table t.sm.table := by
  refine byAgent_cases (P := fun i => (∀ dt, i ≠ .poll dt) → exec i s = .next t → TableSteps s.sm.table t.sm.table)
    ?start ?issueCommand ?issueData ?poll ?wlanConnect ?getWlanStatus ?getBuffers ?getIpConfig ?sockAdd ?sockClose
    ?sockRecv ?sendTo ?onInterrupt ?onTransportComplete i hi hpoll hexec
  case start =>
    rintro - ⟨⟩
    exact .of_eq (startWith_table hwf (Params.sound hwf).startArgs)
  case issueCommand =>
    rintro opcode args - ⟨⟩
    exact .of_eq ((finishStatus_table _).trans (congrArg SocketManager.table (issueCommand_sm opcode args s)))
  case issueData =>
    rintro dopcode args data - ⟨⟩
    exact .of_eq (issueData_table dopcode args data s)
  case poll => exact fun dt hne => absurd rfl (hne dt)
  case wlanConnect =>
    rintro - ⟨⟩
    exact .of_eq ((finishStatus_table _).trans (wlanConnectWith_table _ s))
  case getWlanStatus | getBuffers | getIpConfig =>
    rintro - ⟨⟩
    exact .of_eq rfl
  case sockAdd =>
    rintro family type protocol address - ⟨⟩
    exact tableSteps_sockAdd family type protocol address s
  case sockClose =>
    rintro slot - ⟨⟩
    exact tableSteps_sockClose slot s
  case sockRecv =>
    rintro slot length - ⟨⟩
    exact tableSteps_sockRecv slot length s
  case sendTo =>
    rintro slot data address - ⟨⟩
    rcases sendTo_cases slot data address s with ⟨e, heq⟩ | ⟨args, heq⟩ <;> rw [heq]
    · exact .of_eq rfl
    · exact .of_eq (issueData_table _ args data s)
  case onInterrupt =>
    rintro - ⟨⟩
    exact .of_eq (table_of_tableView (onInterrupt_tableView s))
  case onTransportComplete =>
    rintro rx - hexec
    rcases execOnTransportComplete_cases hexec with rfl | ⟨x, u, -, hc, rfl⟩
    · exact .of_eq rfl
    · exact .of_eq (table_of_tableView (t := finish .nothing u) (completeTransfer_tableView (t := u) hc))

end Sys2Proof.Machine

namespace Sys2Proof.SocketRules

open Sys2Proof.Machine Sys2Proof.Spec

/-- Settles O18: an agent's operation, a dispatch and an `SM_POLL` each change a socket by at most one step
(`TableSteps`). -/
theorem socketTransitionsAreThoseOfTheTable : Obligations.SocketTransitionsAreThoseOfTheTable := by
  intro i s t hwf hi hexec
  show TableSteps s.sm.table t.sm.table
  rcases hi with ⟨hagent, hpoll⟩ | rfl | rfl | ⟨dt, rfl | rfl⟩
  · exact tableSteps_agent hwf hagent hpoll hexec
  · cases hexec
    exact tableSteps_dispatch hwf
  · cases hexec
    exact tableSteps_pollDispatch hwf
  · cases hexec
    exact tableSteps_smPoll dt s
  · cases hexec
    exact tableSteps_pollSocketManager dt s

/-- Settles O52: `sockLookup_some` and `sockLookup_none`. -/
theorem sockLookupFindsTheLowestSlot : Obligations.SockLookupFindsTheLowestSlot := by
  intro d s
  refine ⟨sockLookup d s, rfl, ?_⟩
  cases h : sockLookup d s with
  | none => exact (sockLookup_none d s).1 h
  | some i => exact (sockLookup_some d s i).1 h

/-- Settles O53: `sock_issue` and each rule that uses it are ISSUE_COMMAND with the slot made current. -/
theorem socketCommands : Obligations.SocketCommands := by
  intro n k s hk hwf
  refine ⟨fun opcode args => ?issue, ?init, ?created, ?ready, ?closeWait⟩
  case issue =>
    have hissue := issueFor_issueThen hk hwf opcode args id
    rw [issueThen_id] at hissue
    exact ⟨_, _, hissue, congrArg Host.Outcome.next (finishStatus_eq _)⟩
  case init => exact onSlot_issueThen hk hwf rfl rfl
  case closeWait => exact onSlot_issueThen hk hwf rfl rfl
  case created =>
    split
    · next htype => exact onSlot_issueThen hk hwf (if_pos htype) rfl
    · next htype =>
      refine (onSlot_inUse n _ s k hk).trans (congrArg (done .nothing) ?_)
      exact (if_neg htype).trans (updateSocket_eq_withSlot hk _)
  case ready =>
    split
    · next hread => exact onSlot_issueThen hk hwf (if_pos hread) rfl
    · next hread => exact (onSlot_inUse n _ s k hk).trans (congrArg (done .nothing) (if_neg hread))

/-- Settles O54: one change of the slot's context, by whether the countdown has reached zero. -/
theorem failedSocketsCountDown : Obligations.FailedSocketsCountDown := by
  refine ⟨fun n dt k s hk => ?_, fun _ _ => rfl⟩
  refine (onSlot_inUse n (fun k s => smFailed n dt k s) s k hk).trans ?_
  dsimp only [smFailed]
  split <;> rw [updateSocket_eq_withSlot hk]
  · rfl
  · rw [countdown_eq]
    rfl

/-- Settles O55: the states between are `turns`; a slot in use stays in use, so each turn finds its socket. -/
theorem smPollVisitsTheSlotsInOrder : Obligations.SmPollVisitsTheSlotsInOrder := by
  intro dt s
  refine ⟨turns dt s, _, rfl, fun n hn => ?_, rfl, (done_smSelect_turns dt s).symm⟩
  have hcount : s.sm.table.length ≤ (turns dt s n).sm.table.length := (moves_turns dt s n).grown.table.length_le
  have hk := List.getElem?_eq_getElem (Nat.lt_of_lt_of_le hn hcount)
  exact ⟨_, hk, exec_slotRow hk dt⟩

/-- Settles O56: the mask bit by bit, and the select's guard. -/
theorem selectCoversTheReadySockets : Obligations.SelectCoversTheReadySockets := by
  intro s hwf
  refine ⟨selectMask s.sm.table, fun b hb => ?mask, ?select⟩
  case mask =>
    rw [getLsbD_selectMask _ b hb]
    simp only [selectable_and_toNat_iff _ hb]
  case select =>
    have hguard : s.sm.selectPending = false ∧ s.drv.state = .idle ∧ s.drv.pendingCommand = none ∧
        selectMask s.sm.table ≠ 0 ↔
        s.sm.selectPending = false ∧ driverFree s = true ∧ selectMask s.sm.table ≠ 0 := by
      rw [driverFree_iff, and_assoc]
    split
    · next h =>
      refine ⟨_, _, issue_issueCommand _ _ hwf, ?_⟩
      exact congrArg (done .nothing) (smSelect_issued (hguard.1 h) rfl)
    · next h => exact congrArg (done .nothing) (smSelect_not_tried (mt hguard.2 h))

/-- Settles O57: each reply is one `replyTo`, when its arguments hold a result. -/
theorem createConnectAndCloseReplies : Obligations.CreateConnectAndCloseReplies := by
  intro args cur s
  refine ⟨⟨replyCreate args cur s, rfl, ?create⟩, ⟨replyConnect args cur s, rfl, ?connect⟩,
    ⟨replyClose cur s, rfl, replied_replyTo _ _ _ s⟩⟩
  case create =>
    unfold replyCreate
    cases exResult s.cfg.codec args with
    | none => rfl
    | some v => exact replied_replyTo _ _ _ s
  case connect =>
    cases h : exResult s.cfg.codec args with
    | none => rw [replyConnect, h]
    | some v => exact replied_replyConnect h cur

/-- Settles O58: the select reply slot by slot (`markReadable_eq`), the receive reply by evaluation, and of the optional
branch's replies the one of the opcode. -/
theorem selectReceiveAndServerReplies : Obligations.SelectReceiveAndServerReplies := by
  refine ⟨fun args cur s => ⟨(replySelect args s).sm.table, ?select, ?marked⟩, fun _ _ _ => rfl,
    fun opcode _ cur s hwf => ⟨replyServer opcode cur s, rfl, replied_replyServer hwf opcode cur⟩⟩
  case select =>
    show done .nothing (replySelect args s) = _
    unfold replySelect
    dsimp only
    split <;> rfl
  case marked =>
    rw [replySelect, setSelectPending_cfg]
    cases exSelectRead s.cfg.codec args with
    | none => rfl
    | some mask =>
      refine ⟨List.length_map _, fun n k hk => ?_⟩
      rw [← markReadable_eq]
      exact (List.getElem?_map ..).trans (congrArg (Option.map (markReadable mask)) hk)

/-- Settles O59: `sockLookup` answers the lowest slot with the descriptor, or none. -/
theorem eventsAndDataAreRoutedByDescriptor : Obligations.EventsAndDataAreRoutedByDescriptor := by
  refine ⟨fun d s => ⟨sockCloseWait d s, rfl, fun i k hlow hk => sockCloseWait_found hlow hk, sockCloseWait_missed⟩,
    fun dargs m s => ⟨sockData dargs m s, rfl, ?_⟩⟩
  cases h : dataDesc s.cfg.codec dargs with
  | none => rw [sockData, h]
  | some d => exact ⟨fun i k hlow hk => sockData_found h hlow hk m, fun hmiss => sockData_missed h hmiss m⟩

/-- Settles O60: each operation by the slot, then by the socket's state. -/
theorem applicationSocketOperations : Obligations.ApplicationSocketOperations := by
  refine ⟨fun n length data address i s hfree hi => exec_socketOperation_free hfree hi,
    fun n k s hk hwf => ⟨?close, fun length => ?recv, fun data address => ?send⟩⟩
  case close =>
    split
    · next h => exact ⟨_, _, issueFor_issueThen hk hwf _ _ _, congrArg Host.Outcome.next (sockClose_accepted hk h)⟩
    · next h => exact congrArg Host.Outcome.next (sockClose_refused hk h)
  case recv =>
    split
    · next h =>
      exact ⟨_, _, issueFor_issueThen hk hwf _ _ _, congrArg Host.Outcome.next (sockRecv_accepted hk h length)⟩
    · next h => exact congrArg Host.Outcome.next (sockRecv_refused hk h length)
  case send =>
    split
    · next h =>
      refine ⟨_, _, issueData_issueData _ _ data s, congrArg Host.Outcome.next ?_⟩
      rw [sendTo_accepted hk h, finishStatus_eq]
    · next h => exact congrArg Host.Outcome.next (sendTo_refused hk h data address)

/-- Settles O51: `sockAdd`'s two branches. -/
theorem sockAddFillsTheNextSlot : Obligations.SockAddFillsTheNextSlot := by
  intro family type protocol address s
  show Host.Outcome.next (sockAdd family type protocol address s) = _
  unfold sockAdd
  split <;> rfl

end Sys2Proof.SocketRules

/-! Errors, interrupts and whole runs: the edges the host's controller serves, keeps or drops (R236), how an agent's
operation and a step may end, and that no run is lost otherwise (R234, R248; 60_exceptions). -/

namespace Sys2Proof.Machine

open Sys2Proof.Spec

/-! ### Edges (R236) -/

/-- Next on the schedule, an edge is served where the line is enabled, and masked where it is not. -/
theorem scheduled_edge {s : State} {rest : List Stimulus} (h : s.env.schedule = .edge :: rest) :
    scheduled s = if s.drv.intEn then .run .onInterrupt (dropStimulus rest s)
      else .masked (maskEdge (dropStimulus rest s)) := by
  simp only [scheduled, h]

/-- A kept edge comes before the schedule as soon as the line is enabled. -/
theorem nextEvent_of_heldEdge {s : State} (hdue : transferDue s = false) (hheld : s.env.heldEdge = true)
    (hen : s.drv.intEn = true) : nextEvent s = .run .onInterrupt (releaseEdge s) := by
  simp [nextEvent, hdue, hheld, hen]

/-- ON_INTERRUPT is never held. -/
theorem onInterrupt_not_held {s t : State} (h : exec .onInterrupt s = .next t) : t.result ≠ .held := by
  cases h
  exact nofun

/-- A step whose event is the interrupt is ON_INTERRUPT, once. -/
theorem step_of_run_onInterrupt {s u : State} (h : nextEvent s = .run .onInterrupt u) :
    step s = exec .onInterrupt u :=
  (step_of_run h).trans (settle_of_not_held fun _ => onInterrupt_not_held)

/-! ### How an operation and a step end (R230, R248) -/

/-- Of the rules that end a transaction only the header's can find that RX overflows (R129 to R132). -/
theorem readingHeader_of_completeTransfer_none {x : Xfer} {rx : List Byte} {s : State}
    (h : completeTransfer x rx s = none) : s.drv.state = .readingHeader := by
  have hstate : (closeXfer (transportDone x rx s)).drv.state = s.drv.state := by rw [closeXfer_transportDone]
  rw [completeTransfer, hstate] at h
  cases hs : s.drv.state with
  | readingHeader => rfl
  | _ => rw [hs] at h; cases h

/-- ON_TRANSPORT_COMPLETE answers a next state, or finds in `ReadingHeader` that RX overflows. -/
theorem exec_onTransportComplete_ends (rx : List Byte) (s : State) :
    (∃ t, exec (.onTransportComplete rx) s = .next t) ∨
      exec (.onTransportComplete rx) s = .fault .rxOverflow ∧ s.drv.state = .readingHeader := by
  cases hx : s.drv.xfer with
  | none => exact .inl ⟨raise .invalidState s, by simp only [exec, execOnTransportComplete, hx]⟩
  | some x =>
    rw [execOnTransportComplete_of_xfer hx]
    cases hc : completeTransfer x rx s with
    | none => exact .inr ⟨rfl, readingHeader_of_completeTransfer_none hc⟩
    | some t => exact .inl ⟨finish .nothing t, rfl⟩

/-- An agent's operation answers a next state, an error being its result (R230); only the transport's completion may
fault instead. -/
theorem exec_agent_ends {i : Instr} (hi : byAgent i = true) (s : State) :
    (∃ t, exec i s = .next t) ∨ exec i s = .fault .rxOverflow ∧ s.drv.state = .readingHeader := by
  cases i
  case onTransportComplete rx => exact exec_onTransportComplete_ends rx s
  case start | issueCommand | issueData | poll | wlanConnect | getWlanStatus | getBuffers | getIpConfig | sockAdd |
      sockClose | sockRecv | sendTo | onInterrupt =>
    exact .inl ⟨_, rfl⟩
  all_goals exact absurd hi Bool.false_ne_true

/-- Settling an operation that answered a next state answers one. -/
theorem settle_next_ends (l : List Stimulus) (u : State) : ∃ t, settle l (.next u) = .next t := by
  by_cases hheld : u.result = .held
  · exact ⟨_, if_pos hheld⟩
  · exact ⟨_, if_neg hheld⟩

/-- With only agents' operations scheduled a step answers a next state, finds in `ReadingHeader` that RX overflows, or
refuses what is no operation. -/
theorem step_ends {s : State} (ha : agentsOnly s = true) :
    (∃ t, step s = .next t) ∨ (step s = .fault .rxOverflow ∧ s.drv.state = .readingHeader) ∨
      ∃ e, step s = .refused (.undecodable e) := by
  cases hevent : nextEvent s with
  | rest => exact .inl ⟨s, by simp only [step, hevent]⟩
  | masked u => exact .inl ⟨u, by simp only [step, hevent]⟩
  | reject e => exact .inr (.inr ⟨e, by simp only [step, hevent]⟩)
  | run i u =>
    obtain ⟨hi, -⟩ := nextEvent_byAgent ha hevent
    obtain ⟨e, rfl⟩ := nextEvent_run hevent
    rw [step_of_run hevent]
    rcases exec_agent_ends hi { s with env := e } with ⟨t, ht⟩ | ⟨hfault, hstate⟩
    · rw [ht]
      exact .inl (settle_next_ends s.env.schedule t)
    · rw [hfault]
      exact .inr (.inl ⟨rfl, hstate⟩)

/-! ### Runs -/

/-- A run's first step. -/
theorem run_succ_of_next (k : Nat) {s t : State} (h : step s = .next t) : core.run (k + 1) s = core.run k t := by
  have hcore : core.step s = .next t := h
  simp only [Host.Core.run, hcore]

/-- A run whose first step answers no next state ends as that step does. -/
theorem run_succ_of_stop (k : Nat) {s : State} (h : ∀ t, step s ≠ .next t) : core.run (k + 1) s = step s := by
  cases hstep : core.step s with
  | next t => exact absurd hstep (h t)
  | fault | refused => simp only [Host.Core.run, hstep]; exact hstep.symm

/-- What every step keeps, a run keeps: it goes on in a state that has it, or it has come to such a state and ends with
the step from there. -/
theorem run_keeps {P : State → Prop} (keeps : ∀ s t, P s → step s = .next t → P t) (k : Nat) {s : State} (h : P s) :
    (∃ t, core.run k s = .next t ∧ P t) ∨
      ∃ j < k, ∃ u, core.run j s = .next u ∧ P u ∧ (∀ t, step u ≠ .next t) ∧ core.run k s = step u := by
  induction k generalizing s with
  | zero => exact .inl ⟨s, rfl, h⟩
  | succ k ih =>
    by_cases hnext : ∃ t, step s = .next t
    · obtain ⟨t, ht⟩ := hnext
      rw [run_succ_of_next k ht]
      rcases ih (keeps s t h ht) with hgo | ⟨j, hj, u, hreach, hu, hstop, hend⟩
      · exact .inl hgo
      · exact .inr ⟨j + 1, Nat.succ_lt_succ hj, u, (run_succ_of_next j ht).trans hreach, hu, hstop, hend⟩
    · have hstop : ∀ t, step s ≠ .next t := fun t ht => hnext ⟨t, ht⟩
      exact .inr ⟨0, Nat.succ_pos k, s, rfl, h, hstop, run_succ_of_stop k hstop⟩

end Sys2Proof.Machine

namespace Sys2Proof.ExceptionRules

open Sys2Proof.Machine Sys2Proof.Spec

/-- Settles O6: the edge is the next event, in the state the controller leaves, and ON_INTERRUPT is never held. -/
theorem edgesAreServedKeptOrDropped : Obligations.EdgesAreServedKeptOrDropped := by
  refine ⟨fun s rest hsched hdue hen => ?masked, fun s hdue hheld hen => ?kept,
    fun s rest hsched hdue hheld hen => ?served⟩
  case masked =>
    have hnext : nextEvent s = .masked (maskEdge (dropStimulus rest s)) := by
      rw [nextEvent_eq_scheduled hdue (by simp [hen]), scheduled_edge hsched, hen]
      rfl
    simp only [step, hnext]
    rfl
  case kept => exact step_of_run_onInterrupt (nextEvent_of_heldEdge hdue hheld hen)
  case served =>
    have hnext : nextEvent s = .run .onInterrupt (dropStimulus rest s) := by
      rw [nextEvent_eq_scheduled hdue (by simp [hheld]), scheduled_edge hsched, hen]
      rfl
    exact step_of_run_onInterrupt hnext

/-- Settles O16: every step keeps the two invariants (O9, O10), so a run that ends does so with a step from a state that
has them, and `step_ends` says how that step can end. -/
theorem noFatalPath : Obligations.NoFatalPath := by
  intro k s hengine htable
  have keeps : ∀ s t, EngineInv s ∧ TableInv s → step s = .next t → EngineInv t ∧ TableInv t :=
    fun s t ⟨he, ht⟩ hstep => ⟨StateInvariants.stepKeepsTheEngineInvariant s t he hstep,
      StateInvariants.stepKeepsTheTableInvariant s t he ht hstep⟩
  rcases run_keeps keeps k ⟨hengine, htable⟩ with ⟨t, hrun, ht⟩ | ⟨j, hj, u, hreach, ⟨hu, -⟩, hstop, hrun⟩
  · rw [hrun]
    exact ht
  · rw [hrun]
    obtain ⟨hagents, -⟩ := (engineInv_iff u).1 hu
    rcases step_ends hagents with ⟨t, ht⟩ | ⟨hfault, hstate⟩ | ⟨e, hrefused⟩
    · exact absurd ht (hstop t)
    · rw [hfault]
      exact ⟨j, hj, u, hreach, hstate, hfault⟩
    · rw [hrefused]
      exact ⟨e, rfl⟩

end Sys2Proof.ExceptionRules
